-- ==== Sys2Proof/Word.lean ====
section
/-! DEFINITION. Words, bytes and fixed-length rows of them (00_scope.md R7, R9 to R11). -/

namespace Sys2Proof

/-- A byte of IN or DOUT. -/
abbrev Byte := BitVec 8

/-- The spec's Word: an unsigned 32-bit integer (R7, R9). `+` on it is the spec's wrapping `+32` (R10, R113). -/
abbrev Word := BitVec 32

/-- A chaining value: 8 Words (R7). -/
abbrev CVal := Vector Word 8

/-- A message block, or the working State of a compression: 16 Words (R7). -/
abbrev Block := Vector Word 16

/-- The sequence `x[i] = f i` for `i` in `0..n` (R11: the upper bound is excluded). -/
def tabulate {α : Type} (n : Nat) (f : Fin n → α) : Vector α n :=
  ⟨((List.finRange n).map f).toArray, by simp⟩

end Sys2Proof
end

