-- ==== Sys2Proof/Machine/Codec.lean ====
section
/-! DEFINITION. The word codec: little-endian bytes to Words and back (41_word_codec.md R100 to R104). -/

namespace Sys2Proof.Machine

/-- `word_from_le_bytes` (R100). -/
def wordFromLeBytes (b : Vector Byte 4) : Word :=
  b[0].setWidth 32 ||| (b[1].setWidth 32 <<< 8) ||| (b[2].setWidth 32 <<< 16) ||| (b[3].setWidth 32 <<< 24)

/-- `word_to_le_bytes`: byte `t` is `w[8t+7 : 8t]` (R102). -/
def wordToLeBytes (w : Word) : Vector Byte 4 :=
  tabulate 4 fun t => w.extractLsb' (8 * t.val) 8

/-- `block_from_le_bytes`: Word `i` is made of bytes `4i` to `4i+3` (R101). -/
def blockFromLeBytes (b : Vector Byte 64) : Block :=
  tabulate 16 fun i => wordFromLeBytes #v[b[4 * i.val], b[4 * i.val + 1], b[4 * i.val + 2], b[4 * i.val + 3]]

/-- `digest_from_cv`: digest byte `4k+t` is byte `t` of `cv[k]` (R103). -/
def digestFromCv (cv : CVal) : Vector Byte 32 :=
  tabulate 32 fun j => (wordToLeBytes cv[j.val / 4])[j.val % 4]'(Nat.mod_lt _ (by decide))

/-- `cv_from_le_bytes`: the 32-byte analogue of R101, used by no step (R104). -/
def cvFromLeBytes (b : Vector Byte 32) : CVal :=
  tabulate 8 fun k => wordFromLeBytes #v[b[4 * k.val], b[4 * k.val + 1], b[4 * k.val + 2], b[4 * k.val + 3]]

end Sys2Proof.Machine
end

