-- ==== Sys2Proof/Config.lean ====
section
/-! DEFINITION. What an implementation fixes (00_scope.md R8, 10_state.md R40) and the free values the spec
leaves open (00_scope.md R14). -/

namespace Sys2Proof

/-- The least value of the parameter LOG2_NMAX (R8). -/
def Config.log2NMaxLeast : Nat := 10

/-- The greatest value of the parameter LOG2_NMAX (R8). -/
def Config.log2NMaxGreatest : Nat := 54

/-- The value of LOG2_NMAX the model's reset state carries. DESIGN CHOICE (notes/assumptions/2.md): R8 leaves the
parameter open; it stands in State (the CAPS register's field), every statement holds for every state and so
for every value of it. -/
def Config.log2NMaxAtReset : BitVec 6 := 12

/-- The number `P` of compression lanes the model's reset state carries: the reference model has `P = 1` (10_state.md
R27, R40). DESIGN CHOICE (notes/assumptions/3.md): R8 leaves the parameter open; the lanes stand in State, every
statement over every state holds for every number of them. -/
def Config.lanesAtReset : Nat := 1

/-- FREE VALUE (R14, R220): the value register number `index` of the datapath and driver holds after the
`reset`-th reset event; the registers of lane `k` have the numbers from `64 k` on. It has no body: nothing can prove
a value of it (notes/assumptions/5.md). -/
opaque Config.drawReg : (reset : Nat) → (index : Nat) → BitVec 64

/-- FREE VALUE (R14, R39): the Word at word address `addr` of scratch bank `bank` after the `reset`-th reset event
and before the core writes its slot (notes/assumptions/6.md). -/
opaque Config.drawScr : (reset : Nat) → (bank : Nat) → (addr : Nat) → BitVec 32

end Sys2Proof
end

