-- ==== Sys2Proof/Syntax.lean ====
section
/-! DEFINITION. The instruction set: one constructor per row of spec/opcode_table.json (30_encoding.md R77). -/

namespace Sys2Proof

/-- The encoded operations of the hardware (R3): the four micro-operations of the core's ROM, whose fields
index the register files S and M (R70, R72), and the host transactions (R73). `data` is the transaction's
DATA32, kept whole also where the row's mask does not cover it, so that no bit is lost (notes/assumptions/9.md);
`addr` is the byte address of an IN or DOUT transaction, a natural number because R73 gives it no width. -/
inductive Instr where
  -- uops, formats U0 and UG
  | init
  | g (a b c d x y : BitVec 4)
  | perm
  | final
  -- CTRL (key 0x80 split on DATA[0]; key 0x00)
  | hash (data : BitVec 32)
  | ctrlNop (data : BitVec 32)
  | rdCtrl (data : BitVec 32)
  -- STATUS, LEN, CAPS
  | rdStatus (data : BitVec 32)
  | wrStatus (data : BitVec 32)
  | wrLenLo (data : BitVec 32)
  | wrLenHi (data : BitVec 32)
  | rdLenLo (data : BitVec 32)
  | rdLenHi (data : BitVec 32)
  | rdCaps (data : BitVec 32)
  | wrCaps (data : BitVec 32)
  -- unmapped CSR indices 5 to 15, three rows each way
  | rdCsrRsvd5 (data : BitVec 32)
  | rdCsrRsvd6to7 (index : BitVec 4) (data : BitVec 32)
  | rdCsrRsvd8to15 (index : BitVec 4) (data : BitVec 32)
  | wrCsrRsvd5 (data : BitVec 32)
  | wrCsrRsvd6to7 (index : BitVec 4) (data : BitVec 32)
  | wrCsrRsvd8to15 (index : BitVec 4) (data : BitVec 32)
  -- IN and DOUT
  | wrIn (data : BitVec 32) (addr : Nat)
  | rdIn (data : BitVec 32) (addr : Nat)
  | rdDout (data : BitVec 32) (addr : Nat)
  | wrDout (data : BitVec 32) (addr : Nat)
  deriving DecidableEq, Repr

end Sys2Proof
end

