-- ==== Sys2Proof/WellFormed.lean ====
section
/-! DEFINITION. Which terms of `Instr` stand for a row of the opcode table (30_encoding.md R74, R77). -/

namespace Sys2Proof

/-- The operand constraints of a row: HASH and CTRL_NOP split on DATA[0] (R74), and the rows of the unmapped
CSRs hold the indices they are named for (R77). Every other field takes every value (R72). -/
def Instr.wellFormed : Instr → Bool
  | .init => true
  | .g _ _ _ _ _ _ => true
  | .perm => true
  | .final => true
  | .hash data => data.getLsbD 0
  | .ctrlNop data => !data.getLsbD 0
  | .rdCtrl _ => true
  | .rdStatus _ => true
  | .wrStatus _ => true
  | .wrLenLo _ => true
  | .wrLenHi _ => true
  | .rdLenLo _ => true
  | .rdLenHi _ => true
  | .rdCaps _ => true
  | .wrCaps _ => true
  | .rdCsrRsvd5 _ => true
  | .rdCsrRsvd6to7 index _ => index == 6 || index == 7
  | .rdCsrRsvd8to15 index _ => decide (8 ≤ index.toNat)
  | .wrCsrRsvd5 _ => true
  | .wrCsrRsvd6to7 index _ => index == 6 || index == 7
  | .wrCsrRsvd8to15 index _ => decide (8 ≤ index.toNat)
  | .wrIn _ _ => true
  | .rdIn _ _ => true
  | .rdDout _ _ => true
  | .wrDout _ _ => true

end Sys2Proof
end

