-- ==== Sys2Proof/Decode.lean ====
section
/-! DEFINITION. Decoding and encoding of uop words and host transaction words (30_encoding.md R70 to R77). -/

namespace Sys2Proof

/-- Why a host transaction is refused (60_exceptions.md R208). The first three name malformed CSR accesses of a
physical bus, the next two reserved host keys (44_host_interface.md R184), the last three accesses to IN and
DOUT (R185 to R188). -/
inductive RefuseReason where
  | csrMisaligned
  | csrWidth
  | csrOutOfRange
  | hostSpaceReserved
  | hostKeyReserved
  | inAddressOutOfRange
  | inBusy
  | doutAddressOutOfRange
  deriving DecidableEq, Repr

/-- Why a 32-bit word is no uop (R75): its opcode is reserved, or a reserved bit is set. -/
inductive UopReject where
  | opcodeReserved
  | reservedBitsSet
  deriving DecidableEq, Repr

/-- An encoded operation: a word of the uop ROM, or a host transaction word with its separate byte address
(R73, R76). -/
inductive Code where
  | uop (u : BitVec 32)
  | host (htw : BitVec 40) (addr : Nat)
  deriving DecidableEq, Repr

/-- Why a code has no instruction. -/
inductive DecodeError where
  | illegalUop (why : UopReject)
  | hostRefused (why : List RefuseReason)
  deriving DecidableEq, Repr

/-! ### Uops -/

/-- A uop of format U0: bits 31:4 must be 0 (R70). -/
def decodeU0 (u : BitVec 32) (i : Instr) : Except UopReject Instr :=
  if u.extractLsb' 4 28 = 0 then .ok i else .error .reservedBitsSet

/-- A uop of format UG: bits 31:28 must be 0, the other fields are taken as they stand (R70, R72). -/
def decodeUG (u : BitVec 32) : Except UopReject Instr :=
  if u.extractLsb' 28 4 = 0 then
    .ok (.g (u.extractLsb' 4 4) (u.extractLsb' 8 4) (u.extractLsb' 12 4) (u.extractLsb' 16 4)
      (u.extractLsb' 20 4) (u.extractLsb' 24 4))
  else .error .reservedBitsSet

/-- The uop a 32-bit word stands for; the opcode `u[3:0]` chooses the format (R70, R71, R75, R76). -/
def decodeUop (u : BitVec 32) : Except UopReject Instr :=
  match (u.extractLsb' 0 4).toNat with
  | 1 => decodeU0 u .init
  | 2 => decodeUG u
  | 3 => decodeU0 u .perm
  | 4 => decodeU0 u .final
  | _ => .error .opcodeReserved

/-! ### Host transactions -/

/-- The reasons the key part of a host transaction word is refused: SPACE = 11; K[4] = 1, or K[3:0] ≠ 0 when
SPACE ≠ CSR (R75). Every reason that applies is named (notes/assumptions/10.md). -/
def hostKeyReasons (space : BitVec 2) (krsvd : BitVec 1) (index : BitVec 4) : List RefuseReason :=
  (if space = 3 then [.hostSpaceReserved] else []) ++
    (if krsvd = 1 ∨ (space ≠ 0 ∧ index ≠ 0) then [.hostKeyReserved] else [])

/-- A CSR read of one of the sixteen indices (R73, R77). -/
def decodeCsrRead (index : BitVec 4) (data : BitVec 32) : Instr :=
  match index.toNat with
  | 0 => .rdCtrl data
  | 1 => .rdStatus data
  | 2 => .rdLenLo data
  | 3 => .rdLenHi data
  | 4 => .rdCaps data
  | 5 => .rdCsrRsvd5 data
  | 6 => .rdCsrRsvd6to7 index data
  | 7 => .rdCsrRsvd6to7 index data
  | _ => .rdCsrRsvd8to15 index data

/-- A CSR write of one of the sixteen indices; key 0x80 splits on DATA[0] (R73, R74, R77). -/
def decodeCsrWrite (index : BitVec 4) (data : BitVec 32) : Instr :=
  match index.toNat with
  | 0 => if data.getLsbD 0 then .hash data else .ctrlNop data
  | 1 => .wrStatus data
  | 2 => .wrLenLo data
  | 3 => .wrLenHi data
  | 4 => .wrCaps data
  | 5 => .wrCsrRsvd5 data
  | 6 => .wrCsrRsvd6to7 index data
  | 7 => .wrCsrRsvd6to7 index data
  | _ => .wrCsrRsvd8to15 index data

/-- The transaction of an admitted key: DIR and SPACE choose the row (R73). -/
def decodeHostKey (dir : BitVec 1) (space : BitVec 2) (index : BitVec 4) (data : BitVec 32) (addr : Nat) : Instr :=
  match space.toNat with
  | 0 => if dir = 1 then decodeCsrWrite index data else decodeCsrRead index data
  | 1 => if dir = 1 then .wrIn data addr else .rdIn data addr
  | _ => if dir = 1 then .wrDout data addr else .rdDout data addr

/-- The host transaction a 40-bit word and its byte address stand for, or the reasons it is refused
(R73 to R75, R77). -/
def decodeHost (htw : BitVec 40) (addr : Nat) : Except (List RefuseReason) Instr :=
  match hostKeyReasons (htw.extractLsb' 37 2) (htw.extractLsb' 36 1) (htw.extractLsb' 32 4) with
  | [] =>
    .ok (decodeHostKey (htw.extractLsb' 39 1) (htw.extractLsb' 37 2) (htw.extractLsb' 32 4)
      (htw.extractLsb' 0 32) addr)
  | why => .error why

/-- Decoding, total on every code (R76). -/
def decode : Code → Except DecodeError Instr
  | .uop u => (decodeUop u).mapError .illegalUop
  | .host htw addr => (decodeHost htw addr).mapError .hostRefused

/-! ### Encoding -/

/-- A host transaction word: `K ∥ DATA32` with K = DIR, SPACE, a 0 bit and INDEX (R73). -/
def hostWord (dir : BitVec 1) (space : BitVec 2) (index : BitVec 4) (data : BitVec 32) : BitVec 40 :=
  dir ++ space ++ 0#1 ++ index ++ data

/-- The code of an instruction, from the formats of R70 and R73 and the opcodes and keys of R71 and R77. -/
def encode : Instr → Code
  | .init => .uop (0#28 ++ 1#4)
  | .g a b c d x y => .uop (0#4 ++ y ++ x ++ d ++ c ++ b ++ a ++ 2#4)
  | .perm => .uop (0#28 ++ 3#4)
  | .final => .uop (0#28 ++ 4#4)
  | .hash data => .host (hostWord 1 0 0 data) 0
  | .ctrlNop data => .host (hostWord 1 0 0 data) 0
  | .rdCtrl data => .host (hostWord 0 0 0 data) 0
  | .rdStatus data => .host (hostWord 0 0 1 data) 0
  | .wrStatus data => .host (hostWord 1 0 1 data) 0
  | .wrLenLo data => .host (hostWord 1 0 2 data) 0
  | .wrLenHi data => .host (hostWord 1 0 3 data) 0
  | .rdLenLo data => .host (hostWord 0 0 2 data) 0
  | .rdLenHi data => .host (hostWord 0 0 3 data) 0
  | .rdCaps data => .host (hostWord 0 0 4 data) 0
  | .wrCaps data => .host (hostWord 1 0 4 data) 0
  | .rdCsrRsvd5 data => .host (hostWord 0 0 5 data) 0
  | .rdCsrRsvd6to7 index data => .host (hostWord 0 0 index data) 0
  | .rdCsrRsvd8to15 index data => .host (hostWord 0 0 index data) 0
  | .wrCsrRsvd5 data => .host (hostWord 1 0 5 data) 0
  | .wrCsrRsvd6to7 index data => .host (hostWord 1 0 index data) 0
  | .wrCsrRsvd8to15 index data => .host (hostWord 1 0 index data) 0
  | .wrIn data addr => .host (hostWord 1 1 0 data) addr
  | .rdIn data addr => .host (hostWord 0 1 0 data) addr
  | .rdDout data addr => .host (hostWord 0 2 0 data) addr
  | .wrDout data addr => .host (hostWord 1 2 0 data) addr

/-- The instruction the decoder reads from the bits `w` of an opcode-table row of `nbits` bits: a row of 32 bits is
a uop word and a row of 40 bits a host transaction word, whose separate ADDR is then 0. -/
def decodeTableWord (nbits w : Nat) : Option Instr :=
  if nbits = 32 then (decode (.uop (BitVec.ofNat 32 w))).toOption
  else if nbits = 40 then (decode (.host (BitVec.ofNat 40 w) 0)).toOption
  else none

end Sys2Proof
end

