-- ==== Sys2Proof/Machine/Constants.lean ====
section
/-! DEFINITION. The fixed constants (00_scope.md R7, 42_compression.md R110 to R112) and the uop ROM (R130). -/

namespace Sys2Proof.Machine

/-- IV, the eight constant Words (R110). -/
def iv : CVal :=
  #v[0x6A09E667, 0xBB67AE85, 0x3C6EF372, 0xA54FF53A, 0x510E527F, 0x9B05688C, 0x1F83D9AB, 0x5BE0CD19]

/-- MSG_PERMUTATION, sixteen indices (R111). -/
def msgPermutation : Vector (Fin 16) 16 :=
  #v[2, 6, 3, 10, 7, 0, 4, 13, 1, 11, 12, 5, 9, 14, 15, 8]

/-- ROUNDS = 7 (R7, R112). -/
def rounds : Nat := 7

/-- BLOCK_LEN = 64 bytes (R7, R112). -/
def blockLen : Nat := 64

/-- CHUNK_LEN = 1024 bytes (R7, R112). -/
def chunkLen : Nat := 1024

/-- The least chunk count N_MIN = 1024 (R7). -/
def minChunks : Nat := 1024

/-- The domain flags of FLG (10_state.md R25). -/
def flagChunkStart : Word := 1
def flagChunkEnd : Word := 2
def flagParent : Word := 4
def flagRoot : Word := 8

/-- The eight G words, the same in every round, in the order of 42_compression.md R117 (R130). -/
def roundWords : List (BitVec 32) :=
  [0x010C8402, 0x032D9512, 0x054EA622, 0x076FB732, 0x098FA502, 0x0BACB612, 0x0DCD8722, 0x0FEE9432]

/-- One round of the ROM followed by PERM (R130). -/
def roundPermWords : List (BitVec 32) := roundWords ++ [0x00000003]

/-- The uop ROM: INIT, six times a round and PERM, a seventh round, FINAL (R130). -/
def uopRom : Vector (BitVec 32) 64 :=
  ⟨(([0x00000001] ++ roundPermWords ++ roundPermWords ++ roundPermWords ++ roundPermWords ++ roundPermWords
      ++ roundPermWords ++ roundWords ++ [0x00000004] : List (BitVec 32))).toArray, rfl⟩

end Sys2Proof.Machine
end

