-- ==== Sys2Proof/Machine/State.lean ====
section
/-! DEFINITION. The state of the machine (10_state.md, 20_memory.md), the ways a step can stop, and the state
right after reset (10_state.md R39). -/

namespace Sys2Proof.Machine

/-- The pass the driver runs (R29): IDLE, LEAF, PARENT, ROOT. -/
inductive Phase where
  | idle
  | leaf
  | parent
  | root
  deriving DecidableEq, Repr

/-- The step within one compression (R29): LOAD, RUN, STORE. -/
inductive Sub where
  | load
  | run
  | store
  deriving DecidableEq, Repr

/-- Byte memory: (address, byte) pairs in the canonical form `Memory.wf` (Ops.lean). An address that is not listed
reads as `Memory.unlisted`. -/
abbrev Memory := List Host.Cell

/-- One scratch bank: the CV slots written since the last reset, by strictly rising slot number (20_memory.md R52).
A slot that is not listed holds free values (00_scope.md R14). -/
abbrev Scratch := List (Nat × CVal)

/-- The registers of a compression lane (R20 to R25, R28). R27 gives each lane its own set. -/
structure Lane where
  /-- the state register file `S[0..16]` (R20) -/
  s : Block
  /-- the message register file `M[0..16]` (R21) -/
  m : Block
  /-- the chaining-value register `CV[0..8]` (R22) -/
  cv : CVal
  /-- the counter register (R23) -/
  cnt : BitVec 64
  /-- the block-length register (R24) -/
  blen : Word
  /-- the domain-flags register (R25) -/
  flg : Word
  /-- the micro-op program counter (R28) -/
  upc : BitVec 6
  deriving DecidableEq, Repr

/-- The driver registers (R29); with `Lane.upc` they are the program counter of R30. SUB, CI, BJ and NODE are those of
the lane whose turn it is. -/
structure Driver where
  phase : Phase
  sub : Sub
  /-- the chunk count of the run, latched at HASH -/
  nreg : BitVec 64
  /-- `log2(N)` -/
  logn : BitVec 6
  /-- chunk index during LEAF -/
  ci : BitVec 64
  /-- block index within the chunk during LEAF -/
  bj : BitVec 4
  /-- parent level during PARENT -/
  lvl : BitVec 6
  /-- node index within the level during PARENT -/
  node : BitVec 64
  deriving DecidableEq, Repr

/-- A lane that waits for its next turn (R27): its registers, and the driver position of its compression. -/
structure Seat where
  lane : Lane
  sub : Sub
  ci : BitVec 64
  bj : BitVec 4
  node : BitVec 64
  /-- the lane holds no task of the level -/
  waiting : Bool
  deriving DecidableEq, Repr

/-- The `P` lanes beside the one whose turn it is, and which tasks of the level they have taken and stored
(43_chunk_merkle.md R151, R163). A task is a chunk of the leaf pass, a node of a parent level, or the root. With
`P = 1` there is no other lane, and the driver alone says what is next. The model's own form of R163's "at once, in
any order" (notes/assumptions/3.md). -/
structure Team where
  /-- the lane whose turn it is holds no task of the level -/
  waiting : Bool
  /-- the other `P − 1` lanes, the next turn first -/
  parked : List Seat
  /-- the tasks of this level taken so far, the latest first -/
  taken : List Nat
  /-- how many tasks of this level have been stored -/
  stored : Nat
  deriving DecidableEq, Repr

/-- What a completed host transaction returns (44_host_interface.md R170). -/
inductive Reply where
  /-- a write completed -/
  | ack
  /-- a CSR read returned 32 bits -/
  | word (w : Word)
  /-- an IN or DOUT read returned 8 bits -/
  | byte (b : Byte)
  deriving DecidableEq, Repr

/-- What the host puts on its port: a host transaction (30_encoding.md R73), or an access of a physical bus to the
CSR window, which may be malformed (44_host_interface.md R184). -/
inductive HostRequest where
  | transaction (htw : BitVec 40) (addr : Nat)
  | csrAccess (write : Bool) (offset width : Nat) (data : Word)
  deriving DecidableEq, Repr

/-- The model events of the one total order of 20_memory.md R61, as the outside world schedules them: a host
transaction, the external reset (70_reset_and_hazards.md R220), or a turn of the core: of the lane whose turn it is, or
of the lane `lane` places after it, which takes the task `pick` if it takes one (43_chunk_merkle.md R163). -/
inductive Event where
  | host (r : HostRequest)
  | reset
  | coreTurn
  | laneTurn (lane pick : Nat)
  deriving DecidableEq, Repr

/-- The host port, the model's own record (R12, R170, R208): the events still to come, the last reply, and the
sticky mark `refused` with the reasons recorded, oldest first. -/
structure Port where
  inbox : List Event
  reply : Option Reply
  refused : List RefuseReason
  deriving DecidableEq, Repr

/-- The state of the machine (10_state.md R20 to R39). CTRL and the CSR indices 5 to 15 hold no state (R31, R35). -/
structure State where
  /-- the registers of the lane whose turn it is -/
  lane : Lane
  /-- the driver registers -/
  drv : Driver
  /-- the other lanes, `P − 1` of them (R27, R40): no step changes their number -/
  team : Team
  /-- STATUS (R32) -/
  status : Word
  /-- LEN_LO and LEN_HI (R33) -/
  lenLo : Word
  lenHi : Word
  /-- the field LOG2_NMAX of CAPS (R34): constant, written by no step -/
  log2NMax : BitVec 6
  /-- the uop ROM (42_compression.md R130): fixed contents, written by no step -/
  rom : Vector (BitVec 32) 64
  /-- the input memory IN (20_memory.md R50) -/
  inMem : Memory
  /-- the digest memory DOUT (20_memory.md R51) -/
  dout : Vector Byte 32
  /-- the scratch banks SCR[0] and SCR[1] (20_memory.md R52) -/
  scr0 : Scratch
  scr1 : Scratch
  /-- the model's own: how many reset events there have been; selects the free values (R14, R220) -/
  resets : Nat
  /-- the model's own: the host port -/
  port : Port
  deriving DecidableEq, Repr

/-- Why the machine stops with a fault. Every one is SAFE: the model stops where no run of the specified hardware
comes (60_exceptions.md R207). -/
inductive Fault where
  /-- Raised by a RUN step on a ROM word that is no uop; it records `upc` and the word (42_compression.md R132).
  Safe: the ROM holds no such word (R130). -/
  | illegalUop (upc : BitVec 6) (u : BitVec 32)
  /-- Raised by LEAF LOAD where the block at byte address `base` does not lie inside IN: the spec says the address
  does not exist (20_memory.md R50). Safe: CI < N rules it out in every run (43_chunk_merkle.md R156). -/
  | inAbsent (base : Nat)
  /-- Raised by a LOAD or STORE step on a scratch slot `≥ N_MAX`: the spec says the slot does not exist
  (20_memory.md R52). Safe: every slot the driver forms in a run is in range (R207). -/
  | scrAbsent (bank slot : Nat)
  deriving DecidableEq, Repr

/-- Why the machine gives a step no meaning. -/
inductive Refusal where
  /-- Raised by `exec` for an instruction without a meaning. Safe: the model stops. No arm of `exec` answers it. -/
  | notModelled (mnemonic : String)
  deriving DecidableEq, Repr

/-- What a step or an instruction answers. -/
abbrev Res := Host.Outcome State Fault Refusal

/-- The registers of a lane at power-on: 0, a DESIGN CHOICE (notes/assumptions/1.md); that of `upc` is the spec's
(R39). -/
def laneAtReset : Lane where
  s := #v[0, 0, 0, 0, 0, 0, 0, 0, 0, 0, 0, 0, 0, 0, 0, 0]
  m := #v[0, 0, 0, 0, 0, 0, 0, 0, 0, 0, 0, 0, 0, 0, 0, 0]
  cv := #v[0, 0, 0, 0, 0, 0, 0, 0]
  cnt := 0
  blen := 0
  flg := 0
  upc := 0

/-- A lane beside the first at power-on. -/
def seatAtReset : Seat where
  lane := laneAtReset
  sub := .load
  ci := 0
  bj := 0
  node := 0
  waiting := false

/-- The machine right after power-on reset (10_state.md R39, 70_reset_and_hazards.md R220, R221), for the parameters
LOG2_NMAX and `P`, which a model takes as arguments (R40). PHASE, SUB, upc, STATUS and LEN are the spec's; the registers
the spec leaves to a draw are 0, a DESIGN CHOICE (notes/assumptions/1.md), and so are the bytes of DOUT
(notes/assumptions/4.md). -/
def State.resetWith (log2NMax : BitVec 6) (lanes : Nat) : State where
  lane := laneAtReset
  drv := { phase := .idle, sub := .load, nreg := 0, logn := 0, ci := 0, bj := 0, lvl := 0, node := 0 }
  team := { waiting := false, parked := List.replicate (lanes - 1) seatAtReset, taken := [], stored := 0 }
  status := 0
  lenLo := 0
  lenHi := 0
  log2NMax := log2NMax
  rom := uopRom
  inMem := []
  dout := tabulate 32 fun _ => 0
  scr0 := []
  scr1 := []
  resets := 0
  port := { inbox := [], reply := none, refused := [] }

/-- The machine right after power-on reset, with the parameters Config names. -/
def State.reset : State := State.resetWith Config.log2NMaxAtReset Config.lanesAtReset

end Sys2Proof.Machine
end

