-- ==== Sys2Proof/Machine/Flags.lean ====
section
/-! DEFINITION. The two kinds of flags of the hardware (10_state.md R36): the STATUS bits and the domain flags. -/

namespace Sys2Proof.Machine

/-! ### STATUS (R32) -/

/-- STATUS.BUSY, bit 0. -/
def State.busy (s : State) : Bool := s.status.getLsbD 0

/-- STATUS.DONE, bit 1. -/
def State.done (s : State) : Bool := s.status.getLsbD 1

/-- STATUS.ERR, bits 3:2. -/
def State.err (s : State) : BitVec 2 := s.status.extractLsb' 2 2

/-- STATUS while a run is in progress: BUSY = 1, DONE = 0, ERR = 0 (44_host_interface.md R171). -/
def statusBusy : Word := 0x00000001

/-- STATUS after a successful run: BUSY = 0, DONE = 1, ERR = 0 (43_chunk_merkle.md R162). -/
def statusDone : Word := 0x00000002

/-- STATUS after a reported error: `(zext_32(code) << 2) | 2` (60_exceptions.md R204). -/
def statusError (code : BitVec 2) : Word := (code.setWidth 32 <<< 2) ||| 0x00000002

/-- The error codes (R32, 60_exceptions.md R200). -/
def errInvalidInput : BitVec 2 := 1
def errOutOfMemory : BitVec 2 := 2

/-! ### The domain flags (R25) -/

/-- The flags of chunk block `j` (43_chunk_merkle.md R141). -/
def leafFlags (j : Nat) : Word :=
  (if j = 0 then flagChunkStart else 0) ||| (if j = 15 then flagChunkEnd else 0)

/-- The flags of a parent compression, PARENT = 0x4 (43_chunk_merkle.md R144). -/
def parentFlags : Word := flagParent

/-- The flags of the root compression, PARENT | ROOT = 0xC (43_chunk_merkle.md R146). -/
def rootFlags : Word := flagParent ||| flagRoot

end Sys2Proof.Machine
end

