-- ==== Sys2Proof/Machine/Ops.lean ====
section
/-! DEFINITION. The named operations over the memories and registers (00_scope.md R12), the error report
(60_exceptions.md R204), the host refusal (R208) and the reset event (70_reset_and_hazards.md R220). -/

namespace Sys2Proof.Machine

/-! ### Byte memory -/

/-- What a byte of IN that nothing has written reads as. DESIGN CHOICE (notes/assumptions/4.md): the spec gives no
value (00_scope.md R14). -/
def Memory.unlisted : Byte := 0

/-- The byte at address `a`. -/
def Memory.read : Memory → Nat → Byte
  | [], _ => Memory.unlisted
  | (k, v) :: rest, a => if k = a then v else Memory.read rest a

/-- Put `(a, v)` in front, unless `v` is what an unlisted address reads as. -/
def Memory.put (a : Nat) (v : Byte) (rest : Memory) : Memory :=
  if v = Memory.unlisted then rest else (a, v) :: rest

/-- The memory with byte `v` at address `a`, in canonical form again. -/
def Memory.write : Memory → Nat → Byte → Memory
  | [], a, v => Memory.put a v []
  | (k, w) :: rest, a, v =>
    if a < k then Memory.put a v ((k, w) :: rest)
    else if a = k then Memory.put a v rest
    else (k, w) :: Memory.write rest a v

/-- The canonical form: addresses strictly rising, no entry equal to what an unlisted address reads as. -/
def Memory.wf : Memory → Bool
  | [] => true
  | (k, v) :: rest => v != Memory.unlisted && rest.all (fun c => decide (k < c.1)) && Memory.wf rest

/-- Every listed address lies below `size`. -/
def Memory.below (m : Memory) (size : Nat) : Bool := m.all fun c => decide (c.1 < size)

/-! ### Scratch banks -/

/-- The CV written to slot `k`, if one has been written since the last reset. -/
def Scratch.find : Scratch → Nat → Option CVal
  | [], _ => none
  | (j, cv) :: rest, k => if j = k then some cv else Scratch.find rest k

/-- The bank with `cv` written to slot `k`. -/
def Scratch.write : Scratch → Nat → CVal → Scratch
  | [], k, cv => [(k, cv)]
  | (j, old) :: rest, k, cv =>
    if k < j then (k, cv) :: (j, old) :: rest
    else if k = j then (k, cv) :: rest
    else (j, old) :: Scratch.write rest k cv

/-- Slots strictly rising. -/
def Scratch.wf : Scratch → Bool
  | [] => true
  | (k, _) :: rest => rest.all (fun c => decide (k < c.1)) && Scratch.wf rest

/-- Every written slot lies below `size`. -/
def Scratch.below (m : Scratch) (size : Nat) : Bool := m.all fun c => decide (c.1 < size)

/-- The free values of the 8 Words `[8k, 8k+8)` of a slot that nothing has written since reset event number `reset`
(00_scope.md R14, 10_state.md R39). -/
def drawnSlot (reset bank k : Nat) : CVal := tabulate 8 fun w => Config.drawScr reset bank (8 * k + w.val)

/-! ### The spaces of the machine -/

/-- `N_MAX = 2^LOG2_NMAX` (00_scope.md R8). -/
def State.nMax (s : State) : Nat := 2 ^ s.log2NMax.toNat

/-- `IN_BYTES = 1024 × N_MAX` (R8, 20_memory.md R50). -/
def State.inBytes (s : State) : Nat := 1024 * s.nMax

/-- `InRead(a)` (R12). -/
def State.inRead (s : State) (a : Nat) : Byte := s.inMem.read a

/-- `InWrite(a, v)` (R12). -/
def State.inWrite (s : State) (a : Nat) (v : Byte) : State := { s with inMem := s.inMem.write a v }

/-- The scratch bank number `b mod 2` (20_memory.md R52). -/
def State.bank (s : State) (b : Nat) : Scratch := if b % 2 = 0 then s.scr0 else s.scr1

/-- `ScrRead(bank, k)` (R12, R52): the CV in slot `k`, free values where nothing has written the slot. -/
def State.scrRead (s : State) (b k : Nat) : CVal :=
  ((s.bank b).find k).getD (drawnSlot s.resets (b % 2) k)

/-- `ScrWrite(bank, k, cv)` (R12, R52). -/
def State.scrWrite (s : State) (b k : Nat) (cv : CVal) : State :=
  if b % 2 = 0 then { s with scr0 := s.scr0.write k cv } else { s with scr1 := s.scr1.write k cv }

/-- All 32 bytes of DOUT at once (20_memory.md R51, 43_chunk_merkle.md R162). -/
def State.doutWriteAll (s : State) (d : Vector Byte 32) : State := { s with dout := d }

/-- `LEN = LEN_HI ∥ LEN_LO` (10_state.md R33). -/
def State.len (s : State) : BitVec 64 := s.lenHi ++ s.lenLo

/-! ### The host port -/

/-- A host transaction completes and returns `r` (44_host_interface.md R170). -/
def State.respond (s : State) (r : Reply) : State := { s with port := { s.port with reply := some r } }

/-- `refuse <Reason>` (00_scope.md R12, 60_exceptions.md R208): the sticky mark takes the reasons, nothing is
returned, and no architectural state changes. -/
def State.refuse (s : State) (why : List RefuseReason) : State :=
  { s with port := { s.port with reply := none, refused := s.port.refused ++ why } }

/-! ### The error report: the hardware's "trap entry" (60_exceptions.md R204) -/

/-- `raise Error(code)`: STATUS becomes BUSY=0, DONE=1, ERR=code; nothing else changes. There is no return: the
next command simply replaces STATUS (R206). -/
def State.raiseError (s : State) (code : BitVec 2) : State := { s with status := statusError code }

/-! ### Reset (70_reset_and_hazards.md R220) -/

/-- Lane number `k` after reset event number `reset`: `upc` is 0, the rest free values. -/
def drawnLane (reset k : Nat) : Lane where
  s := tabulate 16 fun i => (Config.drawReg reset (64 * k + i.val)).setWidth 32
  m := tabulate 16 fun i => (Config.drawReg reset (64 * k + 16 + i.val)).setWidth 32
  cv := tabulate 8 fun i => (Config.drawReg reset (64 * k + 32 + i.val)).setWidth 32
  cnt := Config.drawReg reset (64 * k + 40)
  blen := (Config.drawReg reset (64 * k + 41)).setWidth 32
  flg := (Config.drawReg reset (64 * k + 42)).setWidth 32
  upc := 0

/-- The other lanes after reset event number `reset`, the first of them lane number `k`: as many as before, SUB is
LOAD, the rest free values. -/
def drawnSeats (reset : Nat) : (k : Nat) → List Seat → List Seat
  | _, [] => []
  | k, _ :: rest =>
    { lane := drawnLane reset k
      sub := .load
      ci := Config.drawReg reset (64 * k + 45)
      bj := (Config.drawReg reset (64 * k + 46)).setWidth 4
      node := Config.drawReg reset (64 * k + 48)
      waiting := false } :: drawnSeats reset (k + 1) rest

/-- The driver after reset event number `reset`: IDLE and LOAD, the rest free values. -/
def drawnDriver (reset : Nat) : Driver where
  phase := .idle
  sub := .load
  nreg := Config.drawReg reset 43
  logn := (Config.drawReg reset 44).setWidth 6
  ci := Config.drawReg reset 45
  bj := (Config.drawReg reset 46).setWidth 4
  lvl := (Config.drawReg reset 47).setWidth 6
  node := Config.drawReg reset 48

/-- The reset event: one indivisible step at any time, on every lane. IN, DOUT, the ROM, CAPS and the mark `refused`
keep their contents; SCR becomes free values (every slot unwritten). -/
def State.resetEvent (s : State) : State :=
  { s with
    lane := drawnLane (s.resets + 1) 0
    drv := drawnDriver (s.resets + 1)
    team := { waiting := false, parked := drawnSeats (s.resets + 1) 1 s.team.parked, taken := [], stored := 0 }
    status := 0
    lenLo := 0
    lenHi := 0
    scr0 := []
    scr1 := []
    resets := s.resets + 1 }

end Sys2Proof.Machine
end

