-- ==== Sys2Proof/Machine/Operands.lean ====
section
/-! DEFINITION. Operand forms: register indices of a uop (30_encoding.md R72), addresses and data of a host
transaction (R73), and the checks HASH makes on the length (44_host_interface.md R189). -/

namespace Sys2Proof.Machine

/-! ### Uop operands (R72) -/

/-- A 4-bit field as an index of S or M: every value is legal. -/
def regIndex (f : BitVec 4) : Fin 16 := f.toFin

/-- The message operand `M[x]`, read when the uop executes. -/
def State.msgWord (s : State) (x : BitVec 4) : Word := s.lane.m[regIndex x]

/-! ### Host operands (R73) -/

/-- The IN write byte `DATA32[7:0]`; bits 31:8 are ignored (R75, R185). -/
def dataByte (data : BitVec 32) : Byte := data.extractLsb' 0 8

/-- The address lies in IN (20_memory.md R50). -/
def State.inRange (s : State) (a : Nat) : Bool := decide (a < s.inBytes)

/-- The reasons a CSR access of a physical bus is malformed (20_memory.md R53, 44_host_interface.md R184). Every
reason that applies is named (notes/assumptions/10.md). -/
def csrAccessReasons (offset width : Nat) : List RefuseReason :=
  (if offset % 4 ≠ 0 then [.csrMisaligned] else []) ++
    (if width ≠ 32 then [.csrWidth] else []) ++
    (if 0x40 ≤ offset then [.csrOutOfRange] else [])

/-- The transaction word of an aligned 32-bit CSR access: CSR index `offset / 4`; a read carries DATA32 = 0 (R73). -/
def csrAccessWord (write : Bool) (offset : Nat) (data : Word) : BitVec 40 :=
  hostWord (if write then 1 else 0) 0 (BitVec.ofNat 4 (offset / 4)) (if write then data else 0)

/-! ### The length of a command (R189) -/

/-- `N = L / 1024`. -/
def chunkCount (len : BitVec 64) : Nat := len.toNat / chunkLen

/-- `valid(L)`: a multiple of 1024, a power-of-two chunk count, at least 1024 chunks. -/
def validLength (len : BitVec 64) : Bool :=
  decide (len.toNat % chunkLen = 0) && decide (chunkCount len = 2 ^ Nat.log2 (chunkCount len)) &&
    decide (minChunks ≤ chunkCount len)

/-! ### Driver operands (43_chunk_merkle.md Part B) -/

/-- The byte address of the block LEAF LOAD reads, `1024·CI + 64·BJ` (R156). -/
def State.leafBase (s : State) : Nat := 1024 * s.drv.ci.toNat + 64 * s.drv.bj.toNat

/-- The number of nodes of the parent level being made, `NREG >> LVL` (R160). -/
def State.levelSize (s : State) : Nat := s.drv.nreg.toNat >>> s.drv.lvl.toNat

/-- The bank PARENT LOAD reads, `(LVL − 1) mod 2` (R153, R159). -/
def State.parentSource (s : State) : Nat := (s.drv.lvl - 1).toNat % 2

/-- The bank ROOT LOAD reads, `(LOGN − 1) mod 2` (R153, R161). -/
def State.rootSource (s : State) : Nat := (s.drv.logn - 1).toNat % 2

end Sys2Proof.Machine
end

