-- ==== Sys2Proof/Machine/Lanes.lean ====
section
/-! DEFINITION. The lanes of an implementation with any `P` (10_state.md R27, 43_chunk_merkle.md R163): whose turn it
is, which task of the level a lane takes, and where the driver goes when a task has been stored. R163 gives three
conditions and no sequencer; the sequencer here is the model's own (notes/assumptions/3.md). -/

namespace Sys2Proof.Machine

/-- `P`, the number of lanes (00_scope.md R8). -/
def State.lanes (s : State) : Nat := s.team.parked.length + 1

/-! ### Whose turn it is -/

/-- The lane whose turn it is, as a seat. -/
def State.seat (s : State) : Seat where
  lane := s.lane
  sub := s.drv.sub
  ci := s.drv.ci
  bj := s.drv.bj
  node := s.drv.node
  waiting := s.team.waiting

/-- The driver at the position of a seat; PHASE, NREG, LOGN and LVL are the run's. -/
def Driver.atSeat (d : Driver) (p : Seat) : Driver :=
  { d with sub := p.sub, ci := p.ci, bj := p.bj, node := p.node }

/-- The turn passes to the next lane. With one lane nothing changes. -/
def State.passTurn (s : State) : State :=
  match s.team.parked with
  | [] => s
  | p :: rest =>
    { s with
      lane := p.lane
      drv := s.drv.atSeat p
      team := { s.team with waiting := p.waiting, parked := rest ++ [s.seat] } }

/-- The turn passes `n` lanes on. -/
def State.turnTo : Nat → State → State
  | 0, s => s
  | n + 1, s => State.turnTo n s.passTurn

/-! ### The tasks of a level (43_chunk_merkle.md R150, R151) -/

/-- How many tasks the level has: `NREG` chunks, `NREG >> LVL` nodes, one root. -/
def State.levelTasks (s : State) : Nat :=
  match s.drv.phase with
  | .idle => 0
  | .leaf => s.drv.nreg.toNat
  | .parent => s.levelSize
  | .root => 1

/-- The least number that is not in the list. -/
def leastUntaken (taken : List Nat) : Nat :=
  ((List.range (taken.length + 1)).find? fun k => !taken.contains k).getD 0

/-- The task a lane without one takes: `pick`, or the least that is left; none when all have been taken. -/
def State.choose (pick : Nat) (s : State) : Option Nat :=
  if pick < s.levelTasks ∧ pick ∉ s.team.taken then some pick
  else if leastUntaken s.team.taken < s.levelTasks then some (leastUntaken s.team.taken)
  else none

/-- The driver at the first LOAD of task `k`, where the reference driver comes to it (R158, R160). -/
def Driver.atTask (d : Driver) (k : Nat) : Driver :=
  match d.phase with
  | .leaf => { d with ci := BitVec.ofNat 64 k, bj := 0, sub := .load }
  | .parent => { d with node := BitVec.ofNat 64 k, sub := .load }
  | .root => { d with sub := .load }
  | .idle => d

/-- The lane takes task `k`. -/
def State.take (k : Nat) (s : State) : State :=
  { s with drv := s.drv.atTask k, team := { s.team with waiting := false, taken := k :: s.team.taken } }

/-- The turn of a lane without a task: it takes one, or passes the turn when none is left: the level barrier holds it
until every task of the level has been stored (R152). -/
def State.takeTask (pick : Nat) (s : State) : State :=
  match s.choose pick with
  | some k => s.take k
  | none => s.passTurn

/-! ### The barrier (R152) -/

/-- The lanes at the start of a level: with `P = 1` the one lane goes on by itself, else every lane waits for a task. -/
def Team.fresh (t : Team) : Team where
  waiting := !t.parked.isEmpty
  parked := t.parked.map fun p => { p with waiting := true }
  taken := []
  stored := 0

/-- Where the driver goes when a STORE has written its slot. With `P = 1` it goes where the reference driver goes
(`alone`). With more lanes the lane waits for its next task, and the last task of the level opens the next level
(`next`). -/
def State.afterStore (s : State) (alone next : Driver) : State :=
  if s.team.parked.isEmpty then { s with drv := alone }
  else if s.team.stored + 1 < s.levelTasks then
    { s with drv := { s.drv with sub := .load }, team := { s.team with waiting := true, stored := s.team.stored + 1 } }
  else { s with drv := next, team := s.team.fresh }

end Sys2Proof.Machine
end

