-- ==== Sys2Proof/Machine/HostCsr.lean ====
section
/-! DEFINITION. The meanings of the host transactions on the CSR window (44_host_interface.md R171 to R183). -/

namespace Sys2Proof.Machine

/-- What an accepted HASH leaves: the run's chunk count latched, the driver at the first LEAF LOAD, STATUS busy
(R171, 43_chunk_merkle.md R155), and every lane at the start of the leaf level. LVL and NODE keep their values until
the last LEAF STORE writes them, as R171 and R158 have it, where the note in R39's table says that HASH writes them:
DEDUCED (notes/assumptions/17.md). -/
def State.startRun (s : State) (chunks : Nat) : State :=
  { s with
    drv := { s.drv with
      phase := .leaf, sub := .load, ci := 0, bj := 0
      nreg := BitVec.ofNat 64 chunks, logn := BitVec.ofNat 6 (Nat.log2 chunks) }
    team := s.team.fresh
    status := statusBusy }

/-- The state HASH leaves: ignored while BUSY; else InvalidInput, then OutOfMemory, then a run (R171, R203). -/
def State.hashCommand (s : State) : State :=
  if s.busy then s
  else if !validLength s.len then s.raiseError errInvalidInput
  else if s.nMax < chunkCount s.len then s.raiseError errOutOfMemory
  else s.startRun (chunkCount s.len)

/-- HASH; `DATA[31:1]` is ignored (R171). -/
def execHash (_data : BitVec 32) (s : State) : Res := .next (s.hashCommand.respond .ack)

/-- A CSR write that changes no state. -/
def writeIgnored (s : State) : Res := .next (s.respond .ack)

/-- A CSR read that returns `w` and has no side effect. -/
def readReturns (w : Word) (s : State) : Res := .next (s.respond (.word w))

/-- CTRL_NOP (R172). -/
def execCtrlNop (_data : BitVec 32) (s : State) : Res := writeIgnored s

/-- RD_CTRL: 0 (R173). -/
def execRdCtrl (_data : BitVec 32) (s : State) : Res := readReturns 0 s

/-- RD_STATUS (R174). -/
def execRdStatus (_data : BitVec 32) (s : State) : Res := readReturns s.status s

/-- WR_STATUS: STATUS is read-only (R175). -/
def execWrStatus (_data : BitVec 32) (s : State) : Res := writeIgnored s

/-- WR_LEN_LO: accepted while BUSY too (R176). -/
def execWrLenLo (data : BitVec 32) (s : State) : Res := .next ({ s with lenLo := data }.respond .ack)

/-- WR_LEN_HI: accepted while BUSY too (R177). -/
def execWrLenHi (data : BitVec 32) (s : State) : Res := .next ({ s with lenHi := data }.respond .ack)

/-- RD_LEN_LO (R178). -/
def execRdLenLo (_data : BitVec 32) (s : State) : Res := readReturns s.lenLo s

/-- RD_LEN_HI (R179). -/
def execRdLenHi (_data : BitVec 32) (s : State) : Res := readReturns s.lenHi s

/-- RD_CAPS: `zext_32(LOG2_NMAX)` (R180). -/
def execRdCaps (_data : BitVec 32) (s : State) : Res := readReturns (s.log2NMax.setWidth 32) s

/-- WR_CAPS: CAPS is read-only (R181). -/
def execWrCaps (_data : BitVec 32) (s : State) : Res := writeIgnored s

/-- RD_CSR_RSVD, index 5: 0 (R182). -/
def execRdCsrRsvd5 (_data : BitVec 32) (s : State) : Res := readReturns 0 s

/-- RD_CSR_RSVD, indices 6 and 7: 0 (R182). -/
def execRdCsrRsvd6to7 (_index : BitVec 4) (_data : BitVec 32) (s : State) : Res := readReturns 0 s

/-- RD_CSR_RSVD, indices 8 to 15: 0 (R182). -/
def execRdCsrRsvd8to15 (_index : BitVec 4) (_data : BitVec 32) (s : State) : Res := readReturns 0 s

/-- WR_CSR_RSVD, index 5 (R183). -/
def execWrCsrRsvd5 (_data : BitVec 32) (s : State) : Res := writeIgnored s

/-- WR_CSR_RSVD, indices 6 and 7 (R183). -/
def execWrCsrRsvd6to7 (_index : BitVec 4) (_data : BitVec 32) (s : State) : Res := writeIgnored s

/-- WR_CSR_RSVD, indices 8 to 15 (R183). -/
def execWrCsrRsvd8to15 (_index : BitVec 4) (_data : BitVec 32) (s : State) : Res := writeIgnored s

end Sys2Proof.Machine
end

