-- ==== Sys2Proof/Machine/HostMem.lean ====
section
/-! DEFINITION. The meanings of the host transactions on IN and DOUT (44_host_interface.md R185 to R188). -/

namespace Sys2Proof.Machine

/-- WR_IN: refused out of range, then refused while BUSY; else the byte `DATA32[7:0]` is written (R185). -/
def execWrIn (data : BitVec 32) (addr : Nat) (s : State) : Res :=
  if !s.inRange addr then .next (s.refuse [.inAddressOutOfRange])
  else if s.busy then .next (s.refuse [.inBusy])
  else .next ((s.inWrite addr (dataByte data)).respond .ack)

/-- RD_IN: refused out of range; else the byte, also while BUSY (R186). -/
def execRdIn (_data : BitVec 32) (addr : Nat) (s : State) : Res :=
  if !s.inRange addr then .next (s.refuse [.inAddressOutOfRange])
  else .next (s.respond (.byte (s.inRead addr)))

/-- RD_DOUT: refused for `k ≥ 32`; else the digest byte (R187). -/
def execRdDout (_data : BitVec 32) (addr : Nat) (s : State) : Res :=
  if h : addr < 32 then .next (s.respond (.byte s.dout[addr]))
  else .next (s.refuse [.doutAddressOutOfRange])

/-- WR_DOUT: refused for `k ≥ 32`; else ignored (R188). -/
def execWrDout (_data : BitVec 32) (addr : Nat) (s : State) : Res :=
  if addr < 32 then .next (s.respond .ack)
  else .next (s.refuse [.doutAddressOutOfRange])

end Sys2Proof.Machine
end

