-- ==== Sys2Proof/Machine/Compress.lean ====
section
/-! DEFINITION. The compression primitive as functions (42_compression.md, Part A: R113 to R125). -/

namespace Sys2Proof.Machine

/-- `rotr(w, n)`, rotation right for `0 ≤ n < 32`; a rotation by 0 gives `w` (R114). -/
def rotr (w : Word) (n : Nat) : Word :=
  if n = 0 then w else (w >>> n) ||| (w <<< (32 - n))

/-- A first half of G, the lines 1 to 4 and again 5 to 8 of R115 with the message Word `mv` and the rotation
amounts `rd` and `rb`: each line reads the values the earlier lines wrote, also where indices coincide (R116). -/
def mixHalf (st : Block) (a b c d : Fin 16) (mv : Word) (rd rb : Nat) : Block :=
  let st := st.set a (st[a] + st[b] + mv)
  let st := st.set d (rotr (st[d] ^^^ st[a]) rd)
  let st := st.set c (st[c] + st[d])
  st.set b (rotr (st[b] ^^^ st[c]) rb)

/-- The mixer G (R115): rotation amounts 16, 12, 8, 7 (R112). -/
def mixG (st : Block) (a b c d : Fin 16) (mx my : Word) : Block :=
  mixHalf (mixHalf st a b c d mx 16 12) a b c d my 8 7

/-- The four column calls of a round (R117, calls 1 to 4). -/
def columnCalls (st msg : Block) : Block :=
  let st := mixG st 0 4 8 12 msg[0] msg[1]
  let st := mixG st 1 5 9 13 msg[2] msg[3]
  let st := mixG st 2 6 10 14 msg[4] msg[5]
  mixG st 3 7 11 15 msg[6] msg[7]

/-- The four diagonal calls of a round (R117, calls 5 to 8). -/
def diagonalCalls (st msg : Block) : Block :=
  let st := mixG st 0 5 10 15 msg[8] msg[9]
  let st := mixG st 1 6 11 12 msg[10] msg[11]
  let st := mixG st 2 7 8 13 msg[12] msg[13]
  mixG st 3 4 9 14 msg[14] msg[15]

/-- `round(state, msg)`: eight G applications in order (R117). -/
def round (st msg : Block) : Block := diagonalCalls (columnCalls st msg) msg

/-- `permute(msg)`: all sixteen reads see the old message (R119). -/
def permute (msg : Block) : Block := tabulate 16 fun i => msg[msgPermutation[i]]

/-- `permute` applied `k` times. -/
def permuteTimes : Nat → Block → Block
  | 0, msg => msg
  | k + 1, msg => permuteTimes k (permute msg)

/-- Step 1 of `compress`: the state before the rounds (R120). -/
def initState (cvIn : CVal) (counter : BitVec 64) (blen flags : Word) : Block :=
  #v[cvIn[0], cvIn[1], cvIn[2], cvIn[3], cvIn[4], cvIn[5], cvIn[6], cvIn[7],
    iv[0], iv[1], iv[2], iv[3],
    counter.extractLsb' 0 32, counter.extractLsb' 32 32, blen, flags]

/-- Step 2 of `compress`, one pass of its loop: a round, and a permutation after every round but the last (R121). -/
def roundPass (p : Block × Block) (i : Nat) : Block × Block :=
  (round p.1 p.2, if i < rounds - 1 then permute p.2 else p.2)

/-- Step 2 of `compress`: the seven rounds, on the state and the local message (R121, R124). -/
def runRounds (st msg : Block) : Block × Block :=
  (List.range rounds).foldl roundPass (st, msg)

/-- Step 3 of `compress`: `cv_out[i] = state[i] ^ state[i+8]`, without the reference's extra fold (R122, R123). -/
def foldState (st : Block) : CVal := tabulate 8 fun i => st[i.val] ^^^ st[i.val + 8]

/-- `compress(cv_in, block, counter, block_len, flags)` (R120 to R122), total (R125). -/
def compress (cvIn : CVal) (block : Block) (counter : BitVec 64) (blen flags : Word) : CVal :=
  foldState (runRounds (initState cvIn counter blen flags) block).1

/-! ### The row-vector form of the round (R118) -/

/-- Four lanes of one row of the state. -/
abbrev Row := Vector Word 4

/-- `rotl_lanes(r, k)` (R118). -/
def rotlLanes (r : Row) (k : Nat) : Row :=
  tabulate 4 fun j => r[(j.val + k) % 4]'(Nat.mod_lt _ (by decide))

/-- The four rows `r0` to `r3` of the state matrix (R118, 10_state.md R20). -/
structure Rows where
  r0 : Row
  r1 : Row
  r2 : Row
  r3 : Row
  deriving DecidableEq, Repr

/-- Row `r` of the state is `S[4r .. 4r+4]` (10_state.md R20). -/
def rowsOf (st : Block) : Rows :=
  { r0 := #v[st[0], st[1], st[2], st[3]], r1 := #v[st[4], st[5], st[6], st[7]]
    r2 := #v[st[8], st[9], st[10], st[11]], r3 := #v[st[12], st[13], st[14], st[15]] }

/-- The state matrix of four rows. -/
def ofRows (r : Rows) : Block :=
  #v[r.r0[0], r.r0[1], r.r0[2], r.r0[3], r.r1[0], r.r1[1], r.r1[2], r.r1[3],
    r.r2[0], r.r2[1], r.r2[2], r.r2[3], r.r3[0], r.r3[1], r.r3[2], r.r3[3]]

/-- A lane-wise line of G: `f` on each of the four lanes. -/
def zipLanes (f : Word → Word → Word) (x y : Row) : Row :=
  #v[f x[0] y[0], f x[1] y[1], f x[2] y[2], f x[3] y[3]]

/-- Half of a lane-wise G on the rows, with one message Word for each lane (R118 steps 1 and 3). -/
def mixRowsHalf (r : Rows) (mv : Row) (rd rb : Nat) : Rows :=
  let r0 := zipLanes (· + ·) (zipLanes (· + ·) r.r0 r.r1) mv
  let r3 := zipLanes (fun d a => rotr (d ^^^ a) rd) r.r3 r0
  let r2 := zipLanes (· + ·) r.r2 r3
  let r1 := zipLanes (fun b c => rotr (b ^^^ c) rb) r.r1 r2
  { r0 := r0, r1 := r1, r2 := r2, r3 := r3 }

/-- A lane-wise G on the rows (R118 steps 1 and 3). -/
def mixRows (r : Rows) (mx my : Row) : Rows :=
  mixRowsHalf (mixRowsHalf r mx 16 12) my 8 7

/-- Rotating rows 1, 2, 3 left by the given lane counts (R118 steps 2 and 4). -/
def rotateRows (r : Rows) (k1 k2 k3 : Nat) : Rows :=
  { r0 := r.r0, r1 := rotlLanes r.r1 k1, r2 := rotlLanes r.r2 k2, r3 := rotlLanes r.r3 k3 }

/-- `round` in its 4-lane row-vector form (R118). -/
def roundByRows (st msg : Block) : Block :=
  let columns := mixRows (rowsOf st) #v[msg[0], msg[2], msg[4], msg[6]] #v[msg[1], msg[3], msg[5], msg[7]]
  let diagonals := mixRows (rotateRows columns 1 2 3) #v[msg[8], msg[10], msg[12], msg[14]]
    #v[msg[9], msg[11], msg[13], msg[15]]
  ofRows (rotateRows diagonals 3 2 1)

end Sys2Proof.Machine
end

