-- ==== Sys2Proof/Machine/TreeHash.lean ====
section
/-! DEFINITION. The tree hash as functions (43_chunk_merkle.md, Part A: R140 to R150), and the in-place pass of
70_reset_and_hazards.md R228. An input is the function that gives its bytes. -/

namespace Sys2Proof.Machine

/-- The 64 bytes from byte `start` on. -/
def bytesAt (input : Nat → Byte) (start : Nat) : Vector Byte 64 := tabulate 64 fun t => input (start + t.val)

/-- One pass of the loop of `compress_chunk`: block `j` of the chunk that starts at byte `start` (R140). -/
def chunkPass (input : Nat → Byte) (start : Nat) (index : BitVec 64) (cv : CVal) (j : Nat) : CVal :=
  compress cv (blockFromLeBytes (bytesAt input (start + blockLen * j))) index 64 (leafFlags j)

/-- The chaining value after the first `n` blocks of the chunk that starts at byte `start` (R140). -/
def chunkPrefix (input : Nat → Byte) (start : Nat) (index : BitVec 64) (n : Nat) : CVal :=
  (List.range n).foldl (chunkPass input start index) iv

/-- `compress_chunk` of the 1024 bytes from byte `start` on (R140). -/
def compressChunk (input : Nat → Byte) (start : Nat) (index : BitVec 64) : CVal :=
  chunkPrefix input start index 16

/-- The parent block `L ∥ R`: `block[w] = L[w]` and `block[8+w] = R[w]` (R145). -/
def parentBlock (l r : CVal) : Block :=
  tabulate 16 fun w => if h : w.val < 8 then l[w.val] else r[w.val - 8]

/-- A parent compression (R144): counter 0, block length 64, flags PARENT. -/
def parentCv (l r : CVal) : CVal := compress iv (parentBlock l r) 0 64 parentFlags

/-- The root compression (R146). -/
def rootCompression (l r : CVal) : CVal := compress iv (parentBlock l r) 0 64 rootFlags

/-- `level[r][i]`: the leaf pass at level 0 (R143), and the parent of entries `2i` and `2i+1` above (R144, R149). -/
def levelCv (input : Nat → Byte) : (r : Nat) → (i : Nat) → CVal
  | 0, i => compressChunk input (chunkLen * i) (BitVec.ofNat 64 i)
  | r + 1, i => parentCv (levelCv input r (2 * i)) (levelCv input r (2 * i + 1))

/-- `root_cv` of an input of `2^n` chunks (R146). -/
def rootCv (input : Nat → Byte) (n : Nat) : CVal :=
  rootCompression (levelCv input (n - 1) 0) (levelCv input (n - 1) 1)

/-- `core_hash` of an input of `2^n` chunks (R147, R148). -/
def coreHash (input : Nat → Byte) (n : Nat) : Vector Byte 32 := digestFromCv (rootCv input n)

/-- One parent of an in-place pass: parent `i` reads slots `2i` and `2i+1` of the buffer it writes slot `i` of
(70_reset_and_hazards.md R228). -/
def inPlaceParent (buf : Nat → CVal) (i : Nat) : Nat → CVal :=
  fun k => if k = i then parentCv (buf (2 * i)) (buf (2 * i + 1)) else buf k

/-- A level of `size` parents one at a time in ascending order, in place (R228). -/
def inPlacePass (buf : Nat → CVal) (size : Nat) : Nat → CVal :=
  (List.range size).foldl inPlaceParent buf

end Sys2Proof.Machine
end

