-- ==== Sys2Proof/Machine/Uops.lean ====
section
/-! DEFINITION. The meanings of the four uops (42_compression.md R126 to R129). Moving `upc` and the driver is the
RUN step's part (43_chunk_merkle.md R157, Driver.lean). -/

namespace Sys2Proof.Machine

/-- INIT: step 1 of `compress` on the registers, all of S is written (R126). -/
def execInit (s : State) : Res :=
  .next { s with lane := { s.lane with s := initState s.lane.cv s.lane.cnt s.lane.blen s.lane.flg } }

/-- G a, b, c, d, mX, mY: the mixer on S in place, with the message Words M[x] and M[y] (R127). -/
def execG (a b c d x y : BitVec 4) (s : State) : Res :=
  .next { s with lane := { s.lane with
    s := mixG s.lane.s (regIndex a) (regIndex b) (regIndex c) (regIndex d) (s.msgWord x) (s.msgWord y) } }

/-- PERM: M becomes `permute(M)` (R128). -/
def execPerm (s : State) : Res :=
  .next { s with lane := { s.lane with m := permute s.lane.m } }

/-- FINAL: `CV[i] <- S[i] ^ S[i+8]` (R129). -/
def execFinal (s : State) : Res :=
  .next { s with lane := { s.lane with cv := foldState s.lane.s } }

end Sys2Proof.Machine
end

