-- ==== Sys2Proof/Machine/Dispatch.lean ====
section
/-! DEFINITION. The dispatch of an instruction to its meaning. -/

namespace Sys2Proof.Machine

/-- What an instruction does. -/
def exec (i : Instr) (s : State) : Host.Outcome State Fault Refusal :=
  match i with
  -- uops
  | .init => Sys2Proof.Machine.execInit s
  | .g a b c d x y => Sys2Proof.Machine.execG a b c d x y s
  | .perm => Sys2Proof.Machine.execPerm s
  | .final => Sys2Proof.Machine.execFinal s
  -- the CSR window
  | .hash data => Sys2Proof.Machine.execHash data s
  | .ctrlNop data => Sys2Proof.Machine.execCtrlNop data s
  | .rdCtrl data => Sys2Proof.Machine.execRdCtrl data s
  | .rdStatus data => Sys2Proof.Machine.execRdStatus data s
  | .wrStatus data => Sys2Proof.Machine.execWrStatus data s
  | .wrLenLo data => Sys2Proof.Machine.execWrLenLo data s
  | .wrLenHi data => Sys2Proof.Machine.execWrLenHi data s
  | .rdLenLo data => Sys2Proof.Machine.execRdLenLo data s
  | .rdLenHi data => Sys2Proof.Machine.execRdLenHi data s
  | .rdCaps data => Sys2Proof.Machine.execRdCaps data s
  | .wrCaps data => Sys2Proof.Machine.execWrCaps data s
  | .rdCsrRsvd5 data => Sys2Proof.Machine.execRdCsrRsvd5 data s
  | .rdCsrRsvd6to7 index data => Sys2Proof.Machine.execRdCsrRsvd6to7 index data s
  | .rdCsrRsvd8to15 index data => Sys2Proof.Machine.execRdCsrRsvd8to15 index data s
  | .wrCsrRsvd5 data => Sys2Proof.Machine.execWrCsrRsvd5 data s
  | .wrCsrRsvd6to7 index data => Sys2Proof.Machine.execWrCsrRsvd6to7 index data s
  | .wrCsrRsvd8to15 index data => Sys2Proof.Machine.execWrCsrRsvd8to15 index data s
  -- IN and DOUT
  | .wrIn data addr => Sys2Proof.Machine.execWrIn data addr s
  | .rdIn data addr => Sys2Proof.Machine.execRdIn data addr s
  | .rdDout data addr => Sys2Proof.Machine.execRdDout data addr s
  | .wrDout data addr => Sys2Proof.Machine.execWrDout data addr s

end Sys2Proof.Machine
end

