-- ==== Sys2Proof/Machine/Driver.lean ====
section
/-! DEFINITION. The steps of the driver FSM (43_chunk_merkle.md Part B: R156, R158 to R162), and the part of the RUN
step that follows the uop (R157). -/

namespace Sys2Proof.Machine

/-! ### LOAD steps -/

/-- What every LOAD step writes: CV, M, the operands of the compression, `upc <- 0`, `SUB <- RUN`. -/
def State.loadOperands (s : State) (cv : CVal) (m : Block) (cnt : BitVec 64) (flg : Word) : State :=
  { s with
    lane := { s.lane with cv := cv, m := m, cnt := cnt, blen := 64, flg := flg, upc := 0 }
    drv := { s.drv with sub := .run } }

/-- The state LEAF LOAD leaves: CV is IV at block 0 and the chained CV after it, M the block, CNT the chunk index (R156). -/
def State.leafLoaded (s : State) : State :=
  s.loadOperands (if s.drv.bj = 0 then iv else s.lane.cv)
    (blockFromLeBytes (bytesAt s.inRead s.leafBase)) s.drv.ci (leafFlags s.drv.bj.toNat)

/-- LEAF LOAD (R156). -/
def leafLoad (s : State) : Res :=
  if s.leafBase + 64 ≤ s.inBytes then .next s.leafLoaded else .fault (.inAbsent s.leafBase)

/-- The state a LOAD of the two children in slots `k` and `k+1` of a bank leaves (R159, R161). -/
def State.childrenLoaded (s : State) (bank k : Nat) (flg : Word) : State :=
  s.loadOperands iv (parentBlock (s.scrRead bank k) (s.scrRead bank (k + 1))) 0 flg

/-- PARENT LOAD (R159). -/
def parentLoad (s : State) : Res :=
  if 2 * s.drv.node.toNat + 1 < s.nMax then
    .next (s.childrenLoaded s.parentSource (2 * s.drv.node.toNat) parentFlags)
  else .fault (.scrAbsent s.parentSource (2 * s.drv.node.toNat + 1))

/-- ROOT LOAD (R161). -/
def rootLoad (s : State) : Res :=
  if 1 < s.nMax then .next (s.childrenLoaded s.rootSource 0 rootFlags)
  else .fault (.scrAbsent s.rootSource 1)

/-! ### STORE steps -/

/-- The driver after the last leaf: the first parent level (R158). -/
def Driver.afterLeaves (d : Driver) : Driver := { d with phase := .parent, lvl := 1, node := 0, sub := .load }

/-- The reference driver after LEAF STORE has set `BJ <- 0`: the next chunk, or the first parent level (R158). -/
def Driver.afterLeafStore (d : Driver) : Driver :=
  if d.ci.toNat + 1 < d.nreg.toNat then { d with ci := d.ci + 1, sub := .load } else d.afterLeaves

/-- LEAF STORE has written its slot: `BJ <- 0`, and the driver moves (R158). -/
def State.afterLeaf (s : State) : State :=
  { s with drv := { s.drv with bj := 0 } }.afterStore { s.drv with bj := 0 }.afterLeafStore
    { s.drv with bj := 0 }.afterLeaves

/-- LEAF STORE: level 0 lives in bank 0 (R158, R153). -/
def leafStore (s : State) : Res :=
  if s.drv.ci.toNat < s.nMax then .next (s.scrWrite 0 s.drv.ci.toNat s.lane.cv).afterLeaf
  else .fault (.scrAbsent 0 s.drv.ci.toNat)

/-- The driver after the last node of a level: the next level, or the root (R160). -/
def Driver.afterLevel (d : Driver) : Driver :=
  if d.lvl.toNat + 1 < d.logn.toNat then { d with lvl := d.lvl + 1, node := 0, sub := .load }
  else { d with phase := .root, sub := .load }

/-- The reference driver after PARENT STORE: the next node, the next level, or the root (R160). -/
def Driver.afterParentStore (d : Driver) : Driver :=
  if d.node.toNat + 1 < d.nreg.toNat >>> d.lvl.toNat then { d with node := d.node + 1, sub := .load }
  else d.afterLevel

/-- PARENT STORE has written its slot: the driver moves (R160). -/
def State.afterParent (s : State) : State := s.afterStore s.drv.afterParentStore s.drv.afterLevel

/-- PARENT STORE: level LVL lives in bank `LVL mod 2` (R160, R153). -/
def parentStore (s : State) : Res :=
  if s.drv.node.toNat < s.nMax then
    .next (s.scrWrite (s.drv.lvl.toNat % 2) s.drv.node.toNat s.lane.cv).afterParent
  else .fault (.scrAbsent (s.drv.lvl.toNat % 2) s.drv.node.toNat)

/-- EXPORT: the digest and STATUS in one event, and the driver back to IDLE (R162). -/
def exportDigest (s : State) : Res :=
  .next { s.doutWriteAll (digestFromCv s.lane.cv) with
    status := statusDone
    drv := { s.drv with phase := .idle, sub := .load } }

/-! ### The end of a RUN step -/

/-- The driver after FINAL at `upc = 63`: the next block of the chunk, or STORE (R157). -/
def Driver.afterCompression (d : Driver) : Driver :=
  if d.phase = .leaf ∧ d.bj.toNat < 15 then { d with bj := d.bj + 1, sub := .load } else { d with sub := .store }

/-- What follows the uop in a RUN step (R157). At `upc = 63` `upc` stays (notes/assumptions/12.md). -/
def State.afterUop (s : State) : State :=
  if s.lane.upc = 63 then { s with drv := s.drv.afterCompression }
  else { s with lane := { s.lane with upc := s.lane.upc + 1 } }

end Sys2Proof.Machine
end

