-- ==== Sys2Proof/Machine/Sequencer.lean ====
section
/-! DEFINITION. The two agents' steps (00_scope.md R15): fetching and running a uop, selecting a core step
(43_chunk_merkle.md R155, R157), and taking a host request (44_host_interface.md R170, R184). -/

namespace Sys2Proof.Machine

/-! ### The core -/

/-- `Rom[upc]` (10_state.md R28). -/
def State.fetchUop (s : State) : BitVec 32 := s.rom[s.lane.upc.toFin]

/-- A uop has executed: the driver moves on. A stop of the meaning stays a stop. -/
def finishRun : Res → Res
  | .next s => .next s.afterUop
  | .fault r => .fault r
  | .refused r => .refused r

/-- RUN: execute `Rom[upc]`, then advance; a word that is no uop is `fault IllegalUop(upc, u)` (R157,
42_compression.md R132). -/
def runStep (s : State) : Res :=
  match decodeUop s.fetchUop with
  | .ok i => finishRun (exec i s)
  | .error _ => .fault (.illegalUop s.lane.upc s.fetchUop)

/-- The step of the lane whose turn it is, selected by PHASE and SUB; an idle core has no step and waits (R155). -/
def fsmStep (s : State) : Res :=
  match s.drv.phase with
  | .idle => .next s
  | .leaf =>
    match s.drv.sub with
    | .load => leafLoad s
    | .run => runStep s
    | .store => leafStore s
  | .parent =>
    match s.drv.sub with
    | .load => parentLoad s
    | .run => runStep s
    | .store => parentStore s
  | .root =>
    match s.drv.sub with
    | .load => rootLoad s
    | .run => runStep s
    | .store => exportDigest s

/-- A turn of the lane whose turn it is: its step, or, for a lane without a task, the taking of one, `pick` if it is
left (R163). -/
def laneStep (pick : Nat) (s : State) : Res :=
  if s.team.waiting = true ∧ s.drv.phase ≠ .idle then .next (s.takeTask pick) else fsmStep s

/-- The core's step (R155): a turn of the lane whose turn it is, which takes the least task left if it takes one. -/
def coreStep (s : State) : Res := laneStep 0 s

/-- A turn of the lane `lane` places on; an idle core has no step. -/
def laneTurn (lane pick : Nat) (s : State) : Res :=
  if s.drv.phase = .idle then .next s else laneStep pick (s.turnTo lane)

/-! ### The host -/

/-- A host transaction: a reserved key is refused, any other runs its row (R170, R184). -/
def hostTransaction (htw : BitVec 40) (addr : Nat) (s : State) : Res :=
  match decodeHost htw addr with
  | .ok i => exec i s
  | .error why => .next (s.refuse why)

/-- An access of a physical bus to the CSR window: a malformed one is refused, any other is the CSR transaction of
its index (20_memory.md R53, R184). -/
def csrAccess (write : Bool) (offset width : Nat) (data : Word) (s : State) : Res :=
  match csrAccessReasons offset width with
  | [] => hostTransaction (csrAccessWord write offset data) 0 s
  | why => .next (s.refuse why)

/-- What the host puts on its port. -/
def hostStep (r : HostRequest) (s : State) : Res :=
  match r with
  | .transaction htw addr => hostTransaction htw addr s
  | .csrAccess write offset width data => csrAccess write offset width data s

/-! ### The total order of events (20_memory.md R61) -/

/-- One event (R61): a host request, a reset, or a turn of the core. -/
def eventStep (e : Event) (s : State) : Res :=
  match e with
  | .host r => hostStep r s
  | .reset => .next s.resetEvent
  | .coreTurn => coreStep s
  | .laneTurn lane pick => laneTurn lane pick s

/-- The state with its events still to come replaced. -/
def State.withInbox (s : State) (inbox : List Event) : State := { s with port := { s.port with inbox := inbox } }

/-- The next event of the schedule, taken off the inbox; with none left the core goes on (70_reset_and_hazards.md
R230: the host cannot block a run). -/
def nextEvent (s : State) : Res :=
  match s.port.inbox with
  | [] => coreStep s
  | e :: rest => eventStep e (s.withInbox rest)

/-! ### Placing an instruction where the next step takes it -/

/-- A uop word placed at `Rom[upc]`, with a core turn next and the lane whose turn it is in RUN: an idle driver is put
into LEAF with STATUS busy, since the core has a step only then (R15, R155). -/
def State.placeUop (s : State) (u : BitVec 32) : State :=
  { s with
    rom := s.rom.set s.lane.upc.toNat u s.lane.upc.isLt
    drv := { s.drv with phase := if s.drv.phase = .idle then .leaf else s.drv.phase, sub := .run }
    team := { s.team with waiting := false }
    status := if s.drv.phase = .idle then statusBusy else s.status
    port := { s.port with inbox := .coreTurn :: s.port.inbox } }

/-- A host transaction word, with ADDR 0, placed first in the inbox. -/
def State.placeTransaction (s : State) (htw : BitVec 40) : State :=
  s.withInbox (.host (.transaction htw 0) :: s.port.inbox)

/-- The placing `State.withFetchWord` does: 32 bits are a uop word, 40 bits a host transaction word. -/
def State.placeWord (s : State) (nbits w : Nat) : State :=
  if nbits = 32 then s.placeUop (BitVec.ofNat 32 w)
  else if nbits = 40 then s.placeTransaction (BitVec.ofNat 40 w)
  else s

end Sys2Proof.Machine
end

