-- ==== Sys2Proof/Machine/Assembler.lean ====
section
/-! DEFINITION. The assembler's notation: uop syntax and pseudo-instructions (30_encoding.md R78, R79), and the host
program notation (R80). -/

namespace Sys2Proof.Machine

/-! ### Uop pseudo-instructions (R79) -/

/-- `COLUMNS` -/
def asmColumns : List Instr := [.g 0 4 8 12 0 1, .g 1 5 9 13 2 3, .g 2 6 10 14 4 5, .g 3 7 11 15 6 7]

/-- `DIAGONALS` -/
def asmDiagonals : List Instr := [.g 0 5 10 15 8 9, .g 1 6 11 12 10 11, .g 2 7 8 13 12 13, .g 3 4 9 14 14 15]

/-- `ROUND`: `COLUMNS` then `DIAGONALS`, 8 uops -/
def asmRound : List Instr := asmColumns ++ asmDiagonals

/-- `COMPRESS`: `INIT`, `ROUND` and `PERM` six times, `ROUND`, `FINAL`, 64 uops -/
def asmCompress : List Instr :=
  [.init] ++ (List.replicate 6 (asmRound ++ [.perm])).flatten ++ asmRound ++ [.final]

/-! ### Uop syntax (R78) -/

/-- `G a, b, c, d, mX, mY` with decimal indices. -/
def gText (a b c d x y : BitVec 4) : String :=
  "G " ++ toString a.toNat ++ ", " ++ toString b.toNat ++ ", " ++ toString c.toNat ++ ", " ++ toString d.toNat ++
    ", m" ++ toString x.toNat ++ ", m" ++ toString y.toNat

/-- The assembler line of a uop; a host transaction has none. -/
def uopText : Instr → Option String
  | .init => some "INIT"
  | .g a b c d x y => some (gText a b c d x y)
  | .perm => some "PERM"
  | .final => some "FINAL"
  | _ => none

/-! ### Host program notation (R80) -/

/-- The CSR indices of the named registers (10_state.md R31 to R34). -/
def regCtrl : BitVec 4 := 0
def regStatus : BitVec 4 := 1
def regLenLo : BitVec 4 := 2
def regLenHi : BitVec 4 := 3
def regCaps : BitVec 4 := 4

/-- `wr32 REG, v` -/
def wr32 (reg : BitVec 4) (v : Word) : HostRequest := .transaction (hostWord 1 0 reg v) 0

/-- `rd32 REG -> x` -/
def rd32 (reg : BitVec 4) : HostRequest := .transaction (hostWord 0 0 reg 0) 0

/-- `wrin a, v` -/
def wrin (a : Nat) (v : Byte) : HostRequest := .transaction (hostWord 1 1 0 (v.setWidth 32)) a

/-- `rdin a -> x` -/
def rdin (a : Nat) : HostRequest := .transaction (hostWord 0 1 0 0) a

/-- `rddout k -> x` -/
def rddout (k : Nat) : HostRequest := .transaction (hostWord 0 2 0 0) k

/-- `wrdout k, v`: DATA32 is 0 for DOUT (R73), the write is ignored -/
def wrdout (k : Nat) (_v : Byte) : HostRequest := .transaction (hostWord 1 2 0 0) k

/-- `fill a, n, v`: `wrin a+t, v` for `0 ≤ t < n` -/
def fill (a n : Nat) (v : Byte) : List HostRequest := (List.range n).map fun t => wrin (a + t) v

end Sys2Proof.Machine
end

