-- ==== Sys2Proof/Safety.lean ====
section
/-! DEFINITION. What holds of every state a run reaches (`State.Inv`), what a safe run is, and the terms in which the
claims about a whole run are made. -/

namespace Sys2Proof.Machine

/-! ### The invariant of the machine -/

/-- The values STATUS takes (10_state.md R32). -/
def legalStatus : List Word := [0x0, 0x1, 0x2, 0x6, 0xA]

/-- Slots `0` to `n-1` of bank `b mod 2` have been written since the last reset. -/
def State.Written (s : State) (b n : Nat) : Prop := ∀ k < n, ((s.bank b).find k).isSome = true

/-- The storage arrays are in their canonical forms and inside their address ranges (20_memory.md R50, R52), and what
no step changes has its value (10_state.md R40). -/
structure State.StorageInv (s : State) : Prop where
  capacity : Config.log2NMaxLeast ≤ s.log2NMax.toNat ∧ s.log2NMax.toNat ≤ Config.log2NMaxGreatest
  romFixed : s.rom = uopRom
  inWf : s.inMem.wf = true
  inBelow : s.inMem.below s.inBytes = true
  scr0Wf : s.scr0.wf = true
  scr0Below : s.scr0.below s.nMax = true
  scr1Wf : s.scr1.wf = true
  scr1Below : s.scr1.below s.nMax = true

/-- STATUS takes only legal values, BUSY is 1 exactly outside IDLE, and an idle driver is at LOAD (R32,
43_chunk_merkle.md R155). -/
structure State.StatusInv (s : State) : Prop where
  legal : s.status ∈ legalStatus
  busyIff : s.busy = true ↔ s.drv.phase ≠ .idle
  idleLoad : s.drv.phase = .idle → s.drv.sub = .load

/-- The driver's position is inside the run's bounds (10_state.md R29), and the level the run reads has been written
whole: the barrier has passed (R38, R152). -/
structure State.DriverInv (s : State) : Prop where
  latched : s.drv.phase ≠ .idle →
    10 ≤ s.drv.logn.toNat ∧ s.drv.logn.toNat ≤ s.log2NMax.toNat ∧ s.drv.nreg.toNat = 2 ^ s.drv.logn.toNat
  parent : s.drv.phase = .parent →
    1 ≤ s.drv.lvl.toNat ∧ s.drv.lvl.toNat < s.drv.logn.toNat ∧ s.Written (s.drv.lvl.toNat - 1) (2 * s.levelSize)
  root : s.drv.phase = .root → s.Written (s.drv.logn.toNat - 1) 2

/-! ### The lanes -/

/-- The task a lane works on in the given phase: a chunk, a node, or the root. -/
def Seat.task (phase : Phase) (p : Seat) : Nat :=
  match phase with
  | .leaf => p.ci.toNat
  | .parent => p.node.toNat
  | .root => 0
  | .idle => 0

/-- All lanes, the one whose turn it is first. -/
def State.seats (s : State) : List Seat := s.seat :: s.team.parked

/-- The tasks the lanes work on. -/
def State.working (s : State) : List Nat :=
  (s.seats.filter fun p => !p.waiting).map (Seat.task s.drv.phase)

/-- The bank the level being made is stored in (R153). -/
def State.levelBank (s : State) : Nat := if s.drv.phase = .parent then s.drv.lvl.toNat else 0

/-- Task `k` of the level has been stored in its slot (R153, R154); the root is stored in no slot. -/
def State.Stored (s : State) (k : Nat) : Prop :=
  s.drv.phase = .root ∨ ((s.bank s.levelBank).find k).isSome = true

/-- With one lane the tasks before the lane's own have been stored. -/
structure State.AloneInv (s : State) : Prop where
  works : s.team.waiting = false
  inLevel : s.seat.task s.drv.phase < s.levelTasks
  before : ∀ k < s.seat.task s.drv.phase, s.Stored k

/-- With more lanes each task taken is in the level, taken once, and either stored or the task of exactly one lane; the
level is not complete. -/
structure State.SharedInv (s : State) : Prop where
  once : s.team.taken.Nodup
  inLevel : ∀ k ∈ s.team.taken, k < s.levelTasks
  incomplete : s.team.stored < s.levelTasks
  workOnce : s.working.Nodup
  workTaken : ∀ k ∈ s.working, k ∈ s.team.taken
  counted : s.team.taken.length = s.team.stored + s.working.length
  rest : ∀ k ∈ s.team.taken, k ∉ s.working → s.Stored k

/-- How the level's tasks stand, while a run is in progress. -/
structure State.TeamInv (s : State) : Prop where
  alone : s.drv.phase ≠ .idle → s.team.parked = [] → s.AloneInv
  shared : s.drv.phase ≠ .idle → s.team.parked ≠ [] → s.SharedInv

/-- The operands of a lane's compression: the length is 64, the counter the chunk index or 0, the flags those of the
block, parent or root (43_chunk_merkle.md R141, R142, R144, R146, R165); a STORE step finds `upc` at 63, and a chunk's
at its last block. -/
structure Seat.OperandInv (phase : Phase) (p : Seat) : Prop where
  blen : p.sub ≠ .load → p.lane.blen = 64
  leaf : phase = .leaf → p.sub ≠ .load → p.lane.cnt = p.ci ∧ p.lane.flg = leafFlags p.bj.toNat
  parent : phase = .parent → p.sub ≠ .load → p.lane.cnt = 0 ∧ p.lane.flg = parentFlags
  root : phase = .root → p.sub ≠ .load → p.lane.cnt = 0 ∧ p.lane.flg = rootFlags
  stored : p.sub = .store → p.lane.upc = 63
  lastBlock : phase = .leaf → p.sub = .store → p.bj = 15

/-- The operands of every lane that works. -/
def State.OperandInv (s : State) : Prop :=
  s.drv.phase ≠ .idle → ∀ p ∈ s.seats, p.waiting = false → p.OperandInv s.drv.phase

/-- The invariant of the machine: it holds at reset and every step keeps it. -/
structure State.Inv (s : State) : Prop where
  storage : s.StorageInv
  status : s.StatusInv
  driver : s.DriverInv
  team : s.TeamInv
  operand : s.OperandInv

/-! ### Safe runs -/

/-- No host transaction has been refused: the premise of claims about host programs (60_exceptions.md R208). -/
def State.noRefusal (s : State) : Bool := s.port.refused.isEmpty

/-- The state without the model's own fields: what the spec calls architectural state (00_scope.md R12). -/
def State.sameArch (s t : State) : Prop := t = { s with port := t.port }

/-! ### A whole run (43_chunk_merkle.md R155, R166, R167) -/

/-- The state HASH leaves for a run over `2^n` chunks (R155). -/
structure State.RunStart (s : State) (n : Nat) : Prop where
  sizes : 10 ≤ n ∧ n ≤ s.log2NMax.toNat ∧ s.log2NMax.toNat ≤ Config.log2NMaxGreatest
  romFixed : s.rom = uopRom
  phase : s.drv.phase = .leaf
  sub : s.drv.sub = .load
  ci : s.drv.ci = 0
  bj : s.drv.bj = 0
  nreg : s.drv.nreg.toNat = 2 ^ n
  logn : s.drv.logn.toNat = n
  team : s.team = s.team.fresh
  status : s.status = statusBusy

/-- The turn of the core that comes next, if the next event is one: how many lanes on, and the task picked. -/
def State.nextTurn (s : State) : Option (Nat × Nat) :=
  match s.port.inbox with
  | [] => some (0, 0)
  | .coreTurn :: _ => some (0, 0)
  | .laneTurn lane pick :: _ => some (lane, pick)
  | .host _ :: _ => none
  | .reset :: _ => none

/-- The host request is the HASH command: key 0x80 with `DATA[0] = 1` (30_encoding.md R74), or the aligned 32-bit CSR
write of offset 0 with that data (20_memory.md R53). -/
def HostRequest.isHash : HostRequest → Bool
  | .transaction htw _ => htw &&& 0xFF00000001 == 0x8000000001
  | .csrAccess write offset width data => write && offset == 0 && width == 32 && data.getLsbD 0

/-- The other lanes with their registers changed by `g` and nothing else. -/
def State.mapParked (s : State) (g : Lane → Lane) : State :=
  { s with team := { s.team with parked := s.team.parked.map fun p => { p with lane := g p.lane } } }

/-- `k` steps of the machine, stopping at the first fault. -/
def run (k : Nat) (s : State) : Res := Host.Core.run Sys2Proof.core k s

/-- The core steps of one compression: a LOAD and 64 RUN steps. -/
def compressionSteps : Nat := 65

/-- The core steps of a run over `N` chunks: `16N` leaf compressions and `N` STOREs, `N − 2` parents with their
STOREs, the root and EXPORT (R166). -/
def runSteps (chunks : Nat) : Nat :=
  (16 * compressionSteps + 1) * chunks + (compressionSteps + 1) * (chunks - 2) + (compressionSteps + 1)

/-! ### Order freedom inside a level (R151, R163) -/

/-- The tasks of a level done in the given order, each result put into its slot of the bank `dst`. -/
def passInOrder (task : Nat → CVal) (order : List Nat) (dst : Nat → CVal) : Nat → CVal :=
  order.foldl (fun bank i k => if k = i then task i else bank k) dst

/-- A parent level computed from the bank `src` into the bank `dst`, its nodes taken in the given order. -/
def levelInOrder (src : Nat → CVal) (order : List Nat) (dst : Nat → CVal) : Nat → CVal :=
  passInOrder (fun i => parentCv (src (2 * i)) (src (2 * i + 1))) order dst

/-- The leaf level computed into the bank `dst`, its chunks taken in the given order. -/
def leavesInOrder (input : Nat → Byte) (order : List Nat) (dst : Nat → CVal) : Nat → CVal :=
  passInOrder (fun i => compressChunk input (chunkLen * i) (BitVec.ofNat 64 i)) order dst

end Sys2Proof.Machine
end

