-- ==== Sys2Proof/Certificates/Slice0/Obligations.lean ====
section
/-! DEFINITION. The statements for the provers, from the numbered rules of spec/. -/

open Sys2Proof Sys2Proof.Machine

/-! ### Encoding (30_encoding.md) -/

/-- R70, R72, R73, R77: decoding the code of a well-formed instruction gives it back, every operand at every value. -/
def Obligations.DecodeEncodeRoundTrip : Prop :=
  ∀ i : Instr, i.wellFormed = true → decode (encode i) = .ok i

/-- R73, R75, R77: what decodes is well-formed and has that code; a CSR transaction has no ADDR (R73), so its code
carries ADDR 0. -/
def Obligations.EncodeDecodeRoundTrip : Prop :=
  (∀ (u : BitVec 32) (i : Instr), decode (.uop u) = .ok i → i.wellFormed = true ∧ encode i = .uop u) ∧
  (∀ (htw : BitVec 40) (addr : Nat) (i : Instr), decode (.host htw addr) = .ok i →
    i.wellFormed = true ∧ encode i = .host htw (if htw.extractLsb' 37 2 = 0 then 0 else addr))

/-- R77: the opcode map, one conjunct per row, by its match and mask; the unmapped CSR rows decode to the index they
hold. -/
def Obligations.OpcodeMapRows : Prop :=
  (∀ u : BitVec 32,
    (u &&& 0xFFFFFFFF = 0x00000001 → decodeUop u = .ok .init) ∧
    (u &&& 0xF000000F = 0x00000002 → decodeUop u = .ok (.g (u.extractLsb' 4 4) (u.extractLsb' 8 4)
      (u.extractLsb' 12 4) (u.extractLsb' 16 4) (u.extractLsb' 20 4) (u.extractLsb' 24 4))) ∧
    (u &&& 0xFFFFFFFF = 0x00000003 → decodeUop u = .ok .perm) ∧
    (u &&& 0xFFFFFFFF = 0x00000004 → decodeUop u = .ok .final)) ∧
  (∀ (w : BitVec 40) (addr : Nat), let data := w.extractLsb' 0 32; let index := w.extractLsb' 32 4
    (w &&& 0xFF00000001 = 0x8000000001 → decodeHost w addr = .ok (.hash data)) ∧
    (w &&& 0xFF00000001 = 0x8000000000 → decodeHost w addr = .ok (.ctrlNop data)) ∧
    (w &&& 0xFF00000000 = 0x0000000000 → decodeHost w addr = .ok (.rdCtrl data)) ∧
    (w &&& 0xFF00000000 = 0x0100000000 → decodeHost w addr = .ok (.rdStatus data)) ∧
    (w &&& 0xFF00000000 = 0x8100000000 → decodeHost w addr = .ok (.wrStatus data)) ∧
    (w &&& 0xFF00000000 = 0x8200000000 → decodeHost w addr = .ok (.wrLenLo data)) ∧
    (w &&& 0xFF00000000 = 0x8300000000 → decodeHost w addr = .ok (.wrLenHi data)) ∧
    (w &&& 0xFF00000000 = 0x0200000000 → decodeHost w addr = .ok (.rdLenLo data)) ∧
    (w &&& 0xFF00000000 = 0x0300000000 → decodeHost w addr = .ok (.rdLenHi data)) ∧
    (w &&& 0xFF00000000 = 0x0400000000 → decodeHost w addr = .ok (.rdCaps data)) ∧
    (w &&& 0xFF00000000 = 0x8400000000 → decodeHost w addr = .ok (.wrCaps data)) ∧
    (w &&& 0xFF00000000 = 0x0500000000 → decodeHost w addr = .ok (.rdCsrRsvd5 data)) ∧
    (w &&& 0xFE00000000 = 0x0600000000 → decodeHost w addr = .ok (.rdCsrRsvd6to7 index data)) ∧
    (w &&& 0xF800000000 = 0x0800000000 → decodeHost w addr = .ok (.rdCsrRsvd8to15 index data)) ∧
    (w &&& 0xFF00000000 = 0x8500000000 → decodeHost w addr = .ok (.wrCsrRsvd5 data)) ∧
    (w &&& 0xFE00000000 = 0x8600000000 → decodeHost w addr = .ok (.wrCsrRsvd6to7 index data)) ∧
    (w &&& 0xF800000000 = 0x8800000000 → decodeHost w addr = .ok (.wrCsrRsvd8to15 index data)) ∧
    (w &&& 0xFF00000000 = 0xA000000000 → decodeHost w addr = .ok (.wrIn data addr)) ∧
    (w &&& 0xFF00000000 = 0x2000000000 → decodeHost w addr = .ok (.rdIn data addr)) ∧
    (w &&& 0xFF00000000 = 0x4000000000 → decodeHost w addr = .ok (.rdDout data addr)) ∧
    (w &&& 0xFF00000000 = 0xC000000000 → decodeHost w addr = .ok (.wrDout data addr)))

/-- R132: a word whose OP is reserved, or whose reserved bits are not zero, faults with `upc` and the word when a RUN
step executes it; every other word is a uop; no ROM entry is such a word. -/
def Obligations.IllegalUopFaults : Prop :=
  let illegal : BitVec 32 → Prop := fun u =>
    (u.extractLsb' 0 4 ≠ 1 ∧ u.extractLsb' 0 4 ≠ 2 ∧ u.extractLsb' 0 4 ≠ 3 ∧ u.extractLsb' 0 4 ≠ 4) ∨
    (u.extractLsb' 0 4 ≠ 2 ∧ u.extractLsb' 4 28 ≠ 0) ∨ (u.extractLsb' 0 4 = 2 ∧ u.extractLsb' 28 4 ≠ 0)
  (∀ s : State, s.drv.phase ≠ .idle → s.team.waiting = false → s.drv.sub = .run → illegal (s.rom[s.lane.upc.toFin]) →
    coreStep s = .fault (.illegalUop s.lane.upc (s.rom[s.lane.upc.toFin]))) ∧
  (∀ u : BitVec 32, ¬ illegal u → ∃ i, decodeUop u = .ok i) ∧
  (∀ k : Fin 64, ¬ illegal (uopRom[k]))

/-- R184: every malformed CSR access and every reserved host key is refused: the reason is recorded and no
architectural state changes. The model's choice (notes/assumptions/10.md): where several reasons apply it records each,
and the mark `refused` is the list of the reasons. -/
def Obligations.MalformedAccessesRefused : Prop :=
  ∀ s : State,
    (∀ (write : Bool) (offset width : Nat) (data : Word),
      (offset % 4 ≠ 0 → ∃ why, .csrMisaligned ∈ why ∧
        hostStep (.csrAccess write offset width data) s = .next (s.refuse why)) ∧
      (width ≠ 32 → ∃ why, .csrWidth ∈ why ∧
        hostStep (.csrAccess write offset width data) s = .next (s.refuse why)) ∧
      (0x40 ≤ offset → ∃ why, .csrOutOfRange ∈ why ∧
        hostStep (.csrAccess write offset width data) s = .next (s.refuse why))) ∧
    (∀ (htw : BitVec 40) (addr : Nat),
      (htw.extractLsb' 37 2 = 3 → ∃ why, .hostSpaceReserved ∈ why ∧
        hostStep (.transaction htw addr) s = .next (s.refuse why)) ∧
      (htw.extractLsb' 36 1 = 1 → ∃ why, .hostKeyReserved ∈ why ∧
        hostStep (.transaction htw addr) s = .next (s.refuse why)) ∧
      ((htw.extractLsb' 37 2 = 1 ∨ htw.extractLsb' 37 2 = 2) → htw.extractLsb' 32 4 ≠ 0 →
        ∃ why, .hostKeyReserved ∈ why ∧ hostStep (.transaction htw addr) s = .next (s.refuse why))) ∧
    (∀ why : List RefuseReason, s.sameArch (s.refuse why) ∧
      (s.refuse why).port.refused = s.port.refused ++ why)

/-- R53, R73: an aligned 32-bit CSR access inside the window is the CSR transaction of index `offset / 4`. -/
def Obligations.AlignedCsrAccessIsTransaction : Prop :=
  ∀ (s : State) (index : BitVec 4) (data : Word),
    hostStep (.csrAccess true (4 * index.toNat) 32 data) s =
      hostStep (.transaction (1#1 ++ 0#2 ++ 0#1 ++ index ++ data) 0) s ∧
    hostStep (.csrAccess false (4 * index.toNat) 32 data) s =
      hostStep (.transaction (0#1 ++ 0#2 ++ 0#1 ++ index ++ 0#32) 0) s

/-- R74: HASH is key 0x80 with DATA[0] = 1 and CTRL_NOP key 0x80 with DATA[0] = 0, by match and mask; DATA[31:1] is
ignored. -/
def Obligations.HashCommandEncoding : Prop :=
  ∀ (w : BitVec 40) (addr : Nat) (s : State),
    (w &&& 0xFF00000001 = 0x8000000001 ↔ w.extractLsb' 32 8 = 0x80 ∧ w.getLsbD 0 = true) ∧
    (w &&& 0xFF00000001 = 0x8000000001 →
      ∃ data, decodeHost w addr = .ok (.hash data) ∧ exec (.hash data) s = exec (.hash 1) s) ∧
    (w &&& 0xFF00000001 = 0x8000000000 →
      ∃ data, decodeHost w addr = .ok (.ctrlNop data) ∧ exec (.ctrlNop data) s = exec (.ctrlNop 0) s)

/-- 95_test_vectors.md section 10: words written out from the encodings decode to the instruction they stand for. -/
def Obligations.DecodedWordsOfTheSpec : Prop :=
  decodeUop 0x00000001 = .ok .init ∧ decodeUop 0x0FEE9432 = .ok (.g 3 4 9 14 14 15) ∧
  decodeUop 0x00000003 = .ok .perm ∧ decodeUop 0x00000004 = .ok .final ∧
  decodeHost 0x80FFFFFFFF 0 = .ok (.hash 0xFFFFFFFF) ∧ decodeHost 0x80FFFFFFFE 0 = .ok (.ctrlNop 0xFFFFFFFE) ∧
  decodeHost 0x0900000000 0 = .ok (.rdCsrRsvd8to15 9 0) ∧ decodeHost 0xA0000000FF 7 = .ok (.wrIn 0xFF 7)

/-- R130: the layout of the ROM, and its words. -/
def Obligations.RomLayout : Prop :=
  uopRom[0] = 0x00000001 ∧ uopRom[63] = 0x00000004 ∧
  (∀ (i : Fin 7) (j : Fin 8), uopRom[1 + 9 * i.val + j.val]? = roundWords[j.val]?) ∧
  (∀ i : Fin 6, uopRom[9 + 9 * i.val]? = some 0x00000003) ∧
  roundWords = [0x010C8402, 0x032D9512, 0x054EA622, 0x076FB732, 0x098FA502, 0x0BACB612, 0x0DCD8722, 0x0FEE9432] ∧
  uopRom.toList.map Code.uop = asmCompress.map encode

/-! ### The word codec (41_word_codec.md) -/

/-- R105: the round-trip laws. -/
def Obligations.CodecRoundTrip : Prop :=
  (∀ b : Vector Byte 4, wordToLeBytes (wordFromLeBytes b) = b) ∧
  (∀ w : Word, wordFromLeBytes (wordToLeBytes w) = w) ∧
  (∀ b : Vector Byte 32, digestFromCv (cvFromLeBytes b) = b) ∧
  (∀ cv : CVal, cvFromLeBytes (digestFromCv cv) = cv)

/-- R100 to R103: a Word of four bytes is their shifted union, which is their sum since they never overlap, with byte
`t` in bits 8t+7:8t; Word `i` of a block is that of bytes `4i` to `4i+3`; and back: byte `t` of a Word is its bits
8t+7:8t, and digest byte `4k+t` is that of `cv[k]`. -/
def Obligations.CodecIsLittleEndian : Prop :=
  (∀ b : Vector Byte 4,
    wordFromLeBytes b = (b[0].setWidth 32 ||| (b[1].setWidth 32 <<< 8) ||| (b[2].setWidth 32 <<< 16) |||
      (b[3].setWidth 32 <<< 24)) ∧
    (wordFromLeBytes b).toNat = b[0].toNat + 2 ^ 8 * b[1].toNat + 2 ^ 16 * b[2].toNat + 2 ^ 24 * b[3].toNat ∧
    ∀ t : Fin 4, (wordFromLeBytes b).extractLsb' (8 * t.val) 8 = b[t]) ∧
  (∀ (b : Vector Byte 64) (i : Fin 16) (t : Fin 4),
    (blockFromLeBytes b)[i] =
      wordFromLeBytes #v[b[4 * i.val], b[4 * i.val + 1], b[4 * i.val + 2], b[4 * i.val + 3]] ∧
    ((blockFromLeBytes b)[i]).extractLsb' (8 * t.val) 8 = b[4 * i.val + t.val]) ∧
  (∀ (w : Word) (t : Fin 4), (wordToLeBytes w)[t] = w.extractLsb' (8 * t.val) 8) ∧
  (∀ (cv : CVal) (k : Fin 8) (t : Fin 4),
    (digestFromCv cv)[4 * k.val + t.val] = (wordToLeBytes cv[k])[t] ∧
    (digestFromCv cv)[4 * k.val + t.val] = (cv[k]).extractLsb' (8 * t.val) 8)

/-! ### The compression primitive and the uops (42_compression.md) -/

/-- R114: bit `i` of `rotr(w, n)` is `w[(i + n) mod 32]`, for every `n` below 32; the two shifts for `1 ≤ n ≤ 31`, and
`w` itself for 0; the rule's examples. -/
def Obligations.RotrBits : Prop :=
  (∀ (w : Word) (n i : Nat), n < 32 → i < 32 → (rotr w n).getLsbD i = w.getLsbD ((i + n) % 32)) ∧
  (∀ (w : Word) (n : Nat), 1 ≤ n → n ≤ 31 → rotr w n = (w >>> n) ||| (w <<< (32 - n))) ∧
  (∀ w : Word, rotr w 0 = w) ∧
  rotr 0x12345678 16 = 0x56781234 ∧ rotr 0x12345678 12 = 0x67812345 ∧ rotr 0x12345678 8 = 0x78123456 ∧
  rotr 0x12345678 7 = 0xF02468AC ∧ rotr 0x80000000 7 = 0x01000000

/-- R115, R127: on four different state indices the eight lines of G leave the values below; every other element of
S, M, and everything else is unchanged. The four values are written from R115's lines with each line's result
named. -/
def Obligations.GMixesDistinctIndices : Prop :=
  ∀ (a b c d x y : BitVec 4) (s : State),
    a ≠ b → a ≠ c → a ≠ d → b ≠ c → b ≠ d → c ≠ d →
    let sv : BitVec 4 → Word := fun i => s.lane.s[i.toFin]
    let mx := s.lane.m[x.toFin]
    let my := s.lane.m[y.toFin]
    let a1 := sv a + sv b + mx
    let d1 := (sv d ^^^ a1).rotateRight 16
    let c1 := sv c + d1
    let b1 := (sv b ^^^ c1).rotateRight 12
    let a2 := a1 + b1 + my
    let d2 := (d1 ^^^ a2).rotateRight 8
    let c2 := c1 + d2
    let b2 := (b1 ^^^ c2).rotateRight 7
    ∃ st : Block,
      exec (.g a b c d x y) s = .next { s with lane := { s.lane with s := st } } ∧
      st[a.toFin] = a2 ∧ st[b.toFin] = b2 ∧ st[c.toFin] = c2 ∧ st[d.toFin] = d2 ∧
      ∀ i : BitVec 4, i ≠ a → i ≠ b → i ≠ c → i ≠ d → st[i.toFin] = sv i

/-- R116, R127: for every choice of indices, equal ones too, G is the eight lines of R115 in order on the one state
array; M and everything else is unchanged. -/
def Obligations.GRunsEightLinesInOrder : Prop :=
  ∀ (a b c d x y : BitVec 4) (s : State),
    let mx := s.lane.m[x.toFin]
    let my := s.lane.m[y.toFin]
    let put : Block → BitVec 4 → Word → Block := fun st i v => st.set i.toNat v i.isLt
    let val : Block → BitVec 4 → Word := fun st i => st[i.toFin]
    let s1 := put s.lane.s a (val s.lane.s a + val s.lane.s b + mx)
    let s2 := put s1 d (rotr (val s1 d ^^^ val s1 a) 16)
    let s3 := put s2 c (val s2 c + val s2 d)
    let s4 := put s3 b (rotr (val s3 b ^^^ val s3 c) 12)
    let s5 := put s4 a (val s4 a + val s4 b + my)
    let s6 := put s5 d (rotr (val s5 d ^^^ val s5 a) 8)
    let s7 := put s6 c (val s6 c + val s6 d)
    let s8 := put s7 b (rotr (val s7 b ^^^ val s7 c) 7)
    exec (.g a b c d x y) s = .next { s with lane := { s.lane with s := s8 } }

/-- R126: INIT writes all of S; CV, M, CNT, BLEN, FLG and everything else is unchanged. -/
def Obligations.InitBuildsTheState : Prop :=
  ∀ s : State, ∃ st : Block,
    exec .init s = .next { s with lane := { s.lane with s := st } } ∧
    (∀ i : Fin 8, st[i.val] = s.lane.cv[i]) ∧ (∀ i : Fin 4, st[8 + i.val] = iv[i.val]) ∧
    st[12] = s.lane.cnt.extractLsb' 0 32 ∧ st[13] = s.lane.cnt.extractLsb' 32 32 ∧
    st[14] = s.lane.blen ∧ st[15] = s.lane.flg

/-- R128: PERM reads every Word of M as it was before the uop; S and everything else is unchanged. -/
def Obligations.PermPermutesTheMessage : Prop :=
  ∀ s : State, ∃ m : Block,
    exec .perm s = .next { s with lane := { s.lane with m := m } } ∧
    m = #v[s.lane.m[2], s.lane.m[6], s.lane.m[3], s.lane.m[10], s.lane.m[7], s.lane.m[0], s.lane.m[4], s.lane.m[13],
      s.lane.m[1], s.lane.m[11], s.lane.m[12], s.lane.m[5], s.lane.m[9], s.lane.m[14], s.lane.m[15], s.lane.m[8]]

/-- R129: FINAL writes `CV[i] = S[i] ^ S[i+8]`; S, M and everything else is unchanged. -/
def Obligations.FinalFoldsTheState : Prop :=
  ∀ s : State, ∃ cv : CVal,
    exec .final s = .next { s with lane := { s.lane with cv := cv } } ∧
    ∀ i : Fin 8, cv[i] = s.lane.s[i.val] ^^^ s.lane.s[i.val + 8]

/-- R118: the row-vector form of the round gives the same bits. -/
def Obligations.RowVectorRoundIsRound : Prop :=
  ∀ st msg : Block, roundByRows st msg = round st msg

/-- R119: `permute` by MSG_PERMUTATION, its order 8, and the message after a whole compression. -/
def Obligations.PermuteHasOrderEight : Prop :=
  (∀ (msg : Block) (i : Fin 16), (permute msg)[i] = msg[msgPermutation[i]]) ∧
  (∀ msg : Block, permuteTimes 8 msg = msg) ∧
  (∀ k : Nat, 0 < k → k < 8 → ∃ msg : Block, permuteTimes k msg ≠ msg) ∧
  permute #v[0, 1, 2, 3, 4, 5, 6, 7, 8, 9, 10, 11, 12, 13, 14, 15] =
    #v[2, 6, 3, 10, 7, 0, 4, 13, 1, 11, 12, 5, 9, 14, 15, 8] ∧
  permuteTimes 6 #v[0, 1, 2, 3, 4, 5, 6, 7, 8, 9, 10, 11, 12, 13, 14, 15] =
    #v[11, 15, 5, 0, 1, 9, 8, 6, 14, 10, 2, 12, 3, 4, 7, 13]

/-- R131, R157: the 64 ROM words, run as core steps from any register state, leave `compress` of it in CV, `permute^6`
of the message in M, the state after round 6 in S, and CNT, BLEN and FLG alone. The driver ends where R157 says. That
`upc` ends at 63 is the model's reading of R157 beside R28 (notes/assumptions/12.md). -/
def Obligations.RomComputesCompress : Prop :=
  ∀ s : State, s.rom = uopRom → s.drv.phase ≠ .idle → s.team.waiting = false → s.drv.sub = .run → s.lane.upc = 0 →
    s.port.inbox = [] →
    run 64 s = .next { s with
      lane :=
        { s := (runRounds (initState s.lane.cv s.lane.cnt s.lane.blen s.lane.flg) s.lane.m).1
          m := permuteTimes 6 s.lane.m
          cv := compress s.lane.cv s.lane.m s.lane.cnt s.lane.blen s.lane.flg
          cnt := s.lane.cnt, blen := s.lane.blen, flg := s.lane.flg, upc := 63 }
      drv := if s.drv.phase = .leaf ∧ s.drv.bj.toNat < 15 then { s.drv with bj := s.drv.bj + 1, sub := .load }
        else { s.drv with sub := .store } }

/-! ### The driver (43_chunk_merkle.md Part B)

The steps below are those of the lane whose turn it is. Their premise that it has a task (`waiting = false`) always holds
with one lane (`State.AloneInv`). -/

/-- R155: the idle core has no step: a turn, of any lane, changes nothing. -/
def Obligations.IdleCoreWaits : Prop :=
  ∀ s : State, s.drv.phase = .idle → coreStep s = .next s ∧
    (s.port.inbox = [] → step s = .next s) ∧ ∀ lane pick : Nat, laneTurn lane pick s = .next s

/-- R156: LEAF LOAD, where the block lies in IN. -/
def Obligations.LeafLoadStep : Prop :=
  ∀ s : State, s.drv.phase = .leaf → s.drv.sub = .load → s.team.waiting = false →
    1024 * s.drv.ci.toNat + 64 * s.drv.bj.toNat + 64 ≤ s.inBytes →
    ∃ m : Block,
      coreStep s = .next { s with
        lane := { s.lane with
          cv := if s.drv.bj = 0 then iv else s.lane.cv
          m := m, cnt := s.drv.ci, blen := 64, upc := 0
          flg := if s.drv.bj = 0 then 0x1 else if s.drv.bj = 15 then 0x2 else 0x0 }
        drv := { s.drv with sub := .run } } ∧
      ∀ i : Fin 16, m[i] = wordFromLeBytes
        #v[s.inRead (1024 * s.drv.ci.toNat + 64 * s.drv.bj.toNat + 4 * i.val),
          s.inRead (1024 * s.drv.ci.toNat + 64 * s.drv.bj.toNat + 4 * i.val + 1),
          s.inRead (1024 * s.drv.ci.toNat + 64 * s.drv.bj.toNat + 4 * i.val + 2),
          s.inRead (1024 * s.drv.ci.toNat + 64 * s.drv.bj.toNat + 4 * i.val + 3)]

/-- R157: RUN executes `Rom[upc]` and then moves on: below 63 `upc` takes one more, at 63 a leaf block before the last
goes to the next block's LOAD and everything else to STORE. That `upc` stays at 63 there is the model's reading of R157
beside R28 (notes/assumptions/12.md). -/
def Obligations.RunStepAdvances : Prop :=
  ∀ (s t : State) (i : Instr), s.drv.phase ≠ .idle → s.drv.sub = .run → s.team.waiting = false →
    decodeUop (s.rom[s.lane.upc.toFin]) = .ok i → exec i s = .next t →
    coreStep s = .next
      (if s.lane.upc = 63 then
        if s.drv.phase = .leaf ∧ s.drv.bj.toNat < 15 then
          { t with drv := { t.drv with bj := s.drv.bj + 1, sub := .load } }
        else { t with drv := { t.drv with sub := .store } }
      else { t with lane := { t.lane with upc := s.lane.upc + 1 } })

/-- R158: LEAF STORE of the reference model, which has one lane (R27): bank 0 slot CI takes CV, every other slot reads
as before, and the driver moves to the next chunk or to the first parent level. With more lanes the slot is the same,
and `LanesTakeAndStoreTasks` says where the driver goes. -/
def Obligations.LeafStoreStep : Prop :=
  ∀ s : State, s.drv.phase = .leaf → s.drv.sub = .store → s.team.waiting = false → s.lanes = 1 →
    s.drv.ci.toNat < s.nMax →
    ∃ bank0 : Scratch,
      coreStep s = .next { s with
        scr0 := bank0
        drv := if s.drv.ci.toNat + 1 < s.drv.nreg.toNat then { s.drv with bj := 0, ci := s.drv.ci + 1, sub := .load }
          else { s.drv with bj := 0, phase := .parent, lvl := 1, node := 0, sub := .load } } ∧
      bank0.find s.drv.ci.toNat = some s.lane.cv ∧
      ∀ k, k ≠ s.drv.ci.toNat → bank0.find k = s.scr0.find k

/-- R159: PARENT LOAD reads slots `2·NODE` and `2·NODE+1` of bank `(LVL−1) mod 2`. -/
def Obligations.ParentLoadStep : Prop :=
  ∀ s : State, s.drv.phase = .parent → s.drv.sub = .load → s.team.waiting = false → 1 ≤ s.drv.lvl.toNat →
    2 * s.drv.node.toNat + 1 < s.nMax →
    ∃ m : Block,
      coreStep s = .next { s with
        lane := { s.lane with cv := iv, m := m, cnt := 0, blen := 64, flg := 0x4, upc := 0 }
        drv := { s.drv with sub := .run } } ∧
      ∀ w : Fin 8,
        m[w.val] = (s.scrRead ((s.drv.lvl.toNat - 1) % 2) (2 * s.drv.node.toNat))[w] ∧
        m[8 + w.val] = (s.scrRead ((s.drv.lvl.toNat - 1) % 2) (2 * s.drv.node.toNat + 1))[w]

/-- R160: PARENT STORE of the reference model, which has one lane (R27): bank `LVL mod 2` slot NODE takes CV, every
other slot of either bank reads as before, and the driver moves to the next node, the next level or the root. With
more lanes the slot is the same, and `LanesTakeAndStoreTasks` says where the driver goes. -/
def Obligations.ParentStoreStep : Prop :=
  ∀ s : State, s.drv.phase = .parent → s.drv.sub = .store → s.team.waiting = false → s.lanes = 1 →
    s.drv.node.toNat < s.nMax →
    ∃ bank0 bank1 : Scratch,
      coreStep s = .next { s with
        scr0 := bank0, scr1 := bank1
        drv :=
          if s.drv.node.toNat + 1 < s.drv.nreg.toNat / 2 ^ s.drv.lvl.toNat then
            { s.drv with node := s.drv.node + 1, sub := .load }
          else if (s.drv.lvl.toNat : Int) < (s.drv.logn.toNat : Int) - 1 then
            { s.drv with lvl := s.drv.lvl + 1, node := 0, sub := .load }
          else { s.drv with phase := .root, sub := .load } } ∧
      (∀ k, bank0.find k =
        if s.drv.lvl.toNat % 2 = 0 ∧ k = s.drv.node.toNat then some s.lane.cv else s.scr0.find k) ∧
      (∀ k, bank1.find k =
        if s.drv.lvl.toNat % 2 = 1 ∧ k = s.drv.node.toNat then some s.lane.cv else s.scr1.find k)

/-- R161: ROOT LOAD reads slots 0 and 1 of bank `(LOGN−1) mod 2`. -/
def Obligations.RootLoadStep : Prop :=
  ∀ s : State, s.drv.phase = .root → s.drv.sub = .load → s.team.waiting = false → 1 ≤ s.drv.logn.toNat → 1 < s.nMax →
    ∃ m : Block,
      coreStep s = .next { s with
        lane := { s.lane with cv := iv, m := m, cnt := 0, blen := 64, flg := 0xC, upc := 0 }
        drv := { s.drv with sub := .run } } ∧
      ∀ w : Fin 8,
        m[w.val] = (s.scrRead ((s.drv.logn.toNat - 1) % 2) 0)[w] ∧
        m[8 + w.val] = (s.scrRead ((s.drv.logn.toNat - 1) % 2) 1)[w]

/-- R162: EXPORT writes all 32 bytes of DOUT, STATUS, PHASE and SUB in one event. -/
def Obligations.ExportStep : Prop :=
  ∀ s : State, s.drv.phase = .root → s.drv.sub = .store → s.team.waiting = false →
    ∃ d : Vector Byte 32,
      coreStep s = .next { s with
        dout := d, status := 0x00000002, drv := { s.drv with phase := .idle, sub := .load } } ∧
      ∀ (k : Fin 8) (t : Fin 4), d[4 * k.val + t.val] = (s.lane.cv[k]).extractLsb' (8 * t.val) 8

/-- R140, R156 to R158: a chunk's 16 blocks, from the LOAD of block 0, leave `compress_chunk` in bank 0 slot CI, and the
driver and the lanes where a STORE of that chunk takes them; with one lane that is the next chunk or the first parent
level. Where they go with more than one lane (`State.afterLeaf`) is the model's own sequencer for R163
(notes/assumptions/3.md). -/
def Obligations.ChunkRunStoresLeaf : Prop :=
  ∀ s : State, s.rom = uopRom → s.drv.phase = .leaf → s.drv.sub = .load → s.drv.bj = 0 → s.port.inbox = [] →
    s.team.waiting = false → s.drv.ci.toNat < s.nMax →
    ∃ t : State, run (16 * 65 + 1) s = .next t ∧
      t.scr0 = s.scr0.write s.drv.ci.toNat (compressChunk s.inRead (1024 * s.drv.ci.toNat) s.drv.ci) ∧
      t.drv = s.afterLeaf.drv ∧ t.team = s.afterLeaf.team ∧ (s.lanes = 1 → t.drv = s.drv.afterLeafStore) ∧
      t = { s with lane := t.lane, scr0 := t.scr0, drv := t.drv, team := t.team }

/-- R144, R159, R160: the 66 steps of a parent, from its LOAD, leave `compress(IV, L ∥ R, 0, 64, PARENT)` of the two
children in bank `LVL mod 2` slot NODE, and the driver and the lanes where a STORE of that node takes them; with
one lane that is the next node, the next level or the root. Where they go with more than one lane (`State.afterParent`)
is the model's own sequencer for R163 (notes/assumptions/3.md). -/
def Obligations.ParentRunStoresNode : Prop :=
  ∀ s : State, s.rom = uopRom → s.drv.phase = .parent → s.drv.sub = .load → s.port.inbox = [] →
    s.team.waiting = false → 1 ≤ s.drv.lvl.toNat → 2 * s.drv.node.toNat + 1 < s.nMax →
    ∃ t : State, run 66 s = .next t ∧
      t.scrRead (s.drv.lvl.toNat % 2) s.drv.node.toNat =
        compress iv
          (parentBlock (s.scrRead ((s.drv.lvl.toNat - 1) % 2) (2 * s.drv.node.toNat))
            (s.scrRead ((s.drv.lvl.toNat - 1) % 2) (2 * s.drv.node.toNat + 1))) 0 64 0x4 ∧
      t.drv = s.afterParent.drv ∧ t.team = s.afterParent.team ∧ (s.lanes = 1 → t.drv = s.drv.afterParentStore) ∧
      t = { s with lane := t.lane, scr0 := t.scr0, scr1 := t.scr1, drv := t.drv, team := t.team } ∧
      (∀ b k, b % 2 ≠ s.drv.lvl.toNat % 2 ∨ k ≠ s.drv.node.toNat → t.scrRead b k = s.scrRead b k)

/-- R148, R166, R167: in the reference model, which has one lane (R166 counts its steps), from the state HASH leaves for
`2^n` chunks, after exactly the core steps R166 counts,
DOUT holds `core_hash` of the bytes of IN, STATUS is 0x2 and the driver is IDLE; one step before, STATUS is still
busy. Nothing but the lane, the driver, the scratch, DOUT and STATUS has changed. -/
def Obligations.RunReachesDigest : Prop :=
  ∀ (s : State) (n : Nat), s.RunStart n → s.lanes = 1 → s.port.inbox = [] →
    (∃ u : State, run (runSteps (2 ^ n) - 1) s = .next u ∧ u.status = 0x00000001 ∧ u.dout = s.dout) ∧
    ∃ t : State, run (runSteps (2 ^ n)) s = .next t ∧
      t.lane.cv = rootCv s.inRead n ∧ t.dout = coreHash s.inRead n ∧
      t.status = 0x00000002 ∧ t.drv.phase = .idle ∧ t.drv.sub = .load ∧
      t = { s with lane := t.lane, drv := t.drv, scr0 := t.scr0, scr1 := t.scr1, dout := t.dout, status := t.status }

/-- R190, R61, R230: in the reference model, which has one lane, whatever the host does meanwhile, short of a reset:
under every schedule whose core turns are as many as R166 counts, the last event being a core turn, the run ends with
`core_hash` of IN as it stood at HASH in DOUT, STATUS 0x2, and IN unchanged. -/
def Obligations.ScheduledRunReachesDigest : Prop :=
  ∀ (s : State) (n : Nat) (events : List Event), s.RunStart n → s.lanes = 1 →
    s.port.inbox = events ++ [.coreTurn] → (∀ e ∈ events, e ≠ .reset ∧ ∀ lane pick, e ≠ .laneTurn lane pick) →
    events.count .coreTurn + 1 = runSteps (2 ^ n) →
    ∃ t : State, run (events.length + 1) s = .next t ∧
      t.dout = coreHash s.inRead n ∧ t.status = 0x00000002 ∧ t.drv.phase = .idle ∧ t.inMem = s.inMem

/-! ### Any number of lanes, any order (R27, R151, R152, R163) -/

/-- R151, R163: the tasks of a level done in any order: for every order that is a permutation of `0..size`, the nodes of
level `r+1`, computed from the entries of level `r`, leave level `r+1` in their bank, and the chunks of the leaf pass
leave level 0; slots from `size` on are as before. -/
def Obligations.LevelOrderIsFree : Prop :=
  ∀ (input : Nat → Byte) (r size : Nat) (order : List Nat) (src dst : Nat → CVal),
    order.Perm (List.range size) → (∀ k < 2 * size, src k = levelCv input r k) →
    (∀ i < size, levelInOrder src order dst i = levelCv input (r + 1) i) ∧
    (∀ i < size, leavesInOrder input order dst i = levelCv input 0 i) ∧
    (∀ i, size ≤ i → levelInOrder src order dst i = dst i ∧ leavesInOrder input order dst i = dst i)

/-- R151, R152, R163: what the turns of more than one lane do, the model's own sequencer for R163
(notes/assumptions/3.md). A lane without a task takes the one it picks, or the least that is left, or passes the turn
when all have been taken; a lane with a task takes the reference driver's step. A STORE writes the reference driver's
slot; the lane then waits, and the last task of the level opens the next level, where every lane waits for a task. -/
def Obligations.LanesTakeAndStoreTasks : Prop :=
  ∀ (s : State) (pick lane : Nat), s.drv.phase ≠ .idle →
    laneTurn lane pick s = laneStep pick (s.turnTo lane) ∧
    (s.team.waiting = false → laneStep pick s = coreStep s) ∧
    (s.team.waiting = true → pick < s.levelTasks → pick ∉ s.team.taken → laneStep pick s = .next (s.take pick)) ∧
    (s.team.waiting = true → (s.levelTasks ≤ pick ∨ pick ∈ s.team.taken) →
      ∀ k < s.levelTasks, k ∉ s.team.taken → (∀ j < k, j ∈ s.team.taken) → laneStep pick s = .next (s.take k)) ∧
    (s.team.waiting = true → (∀ k < s.levelTasks, k ∈ s.team.taken) → laneStep pick s = .next s.passTurn) ∧
    (s.drv.phase = .leaf → s.drv.sub = .store → s.team.waiting = false → s.lanes ≠ 1 → s.drv.ci.toNat < s.nMax →
      coreStep s = .next { s with
        scr0 := s.scr0.write s.drv.ci.toNat s.lane.cv
        drv := if s.team.stored + 1 < s.drv.nreg.toNat then { s.drv with bj := 0, sub := .load }
          else { s.drv with bj := 0, phase := .parent, lvl := 1, node := 0, sub := .load }
        team := if s.team.stored + 1 < s.drv.nreg.toNat then
            { s.team with waiting := true, stored := s.team.stored + 1 }
          else s.team.fresh }) ∧
    (s.drv.phase = .parent → s.drv.sub = .store → s.team.waiting = false → s.lanes ≠ 1 → s.drv.node.toNat < s.nMax →
      ∃ t : State, coreStep s = .next t ∧
        t.scr0 = (if s.drv.lvl.toNat % 2 = 0 then s.scr0.write s.drv.node.toNat s.lane.cv else s.scr0) ∧
        t.scr1 = (if s.drv.lvl.toNat % 2 = 1 then s.scr1.write s.drv.node.toNat s.lane.cv else s.scr1) ∧
        t.drv = (if s.team.stored + 1 < s.drv.nreg.toNat / 2 ^ s.drv.lvl.toNat then { s.drv with sub := .load }
          else if s.drv.lvl.toNat + 1 < s.drv.logn.toNat then { s.drv with lvl := s.drv.lvl + 1, node := 0, sub := .load }
          else { s.drv with phase := .root, sub := .load }) ∧
        t.team = (if s.team.stored + 1 < s.drv.nreg.toNat / 2 ^ s.drv.lvl.toNat then
            { s.team with waiting := true, stored := s.team.stored + 1 }
          else s.team.fresh) ∧
        t = { s with scr0 := t.scr0, scr1 := t.scr1, drv := t.drv, team := t.team })

/-- R27: each lane has its own registers, and no lane reads another's. A turn of a lane leaves the registers and the
position of every other lane as they are, and does the same whatever those registers hold. The one turn left out, of a
lane that waits with no task left, passes to the next lane (`LanesTakeAndStoreTasks`). -/
def Obligations.LanesArePrivate : Prop :=
  ∀ (s t : State) (pick : Nat) (g : Lane → Lane),
    (s.team.waiting = false ∨ s.drv.phase = .idle ∨ ∃ k < s.levelTasks, k ∉ s.team.taken) →
    laneStep pick s = .next t →
    t.team.parked.map (fun p => { p with waiting := false }) =
        s.team.parked.map (fun p => { p with waiting := false }) ∧
      laneStep pick (s.mapParked g) = .next (t.mapParked g)

/-- R163, R190: any number of lanes, and any schedule of lane turns and host requests without a reset: as long as the
run is in progress STATUS is 0x1, DOUT is as it was, and the level the lanes read holds `core_hash`'s level; when it
ends, DOUT holds `core_hash` of IN and STATUS is 0x2, as with one lane. -/
def Obligations.EveryLaneScheduleReachesDigest : Prop :=
  ∀ (s t : State) (n k : Nat), s.RunStart n → (∀ e ∈ s.port.inbox, e ≠ .reset) → run k s = .next t →
    (∀ j < k, ∀ u, run j s = .next u → u.drv.phase ≠ .idle) →
    (t.drv.phase = .parent → ∀ i < 2 * t.levelSize,
      t.scrRead (t.drv.lvl.toNat - 1) i = levelCv s.inRead (t.drv.lvl.toNat - 1) i) ∧
    (t.drv.phase = .root → ∀ i < 2, t.scrRead (n - 1) i = levelCv s.inRead (n - 1) i) ∧
    ((t.drv.phase ≠ .idle ∧ t.status = 0x00000001 ∧ t.dout = s.dout) ∨
      (t.drv.phase = .idle ∧ t.status = 0x00000002 ∧ t.dout = coreHash s.inRead n))

/-- R230: with nothing left on the host port, a run in progress ends, with any number of lanes: from every state that
meets the invariant the machine comes to IDLE, by EXPORT where it was not idle. -/
def Obligations.EveryRunEnds : Prop :=
  ∀ s : State, s.Inv → s.port.inbox = [] →
    ∃ (k : Nat) (t : State), run k s = .next t ∧ t.drv.phase = .idle ∧
      (s.drv.phase ≠ .idle → t.status = 0x00000002 ∧ t.dout = digestFromCv t.lane.cv)

/-- R228: parents one at a time in ascending order, in place, leave each parent of the level in its slot. -/
def Obligations.InPlaceAscendingIsSafe : Prop :=
  ∀ (buf : Nat → CVal) (size i : Nat), i < size →
    inPlacePass buf size i = parentCv (buf (2 * i)) (buf (2 * i + 1))

/-! ### The host interface (44_host_interface.md, 60_exceptions.md) -/

/-- R189: `valid(L)`, its equivalent form, and the lengths the rule lists. -/
def Obligations.ValidLengthIsPowerOfTwo : Prop :=
  (∀ len : BitVec 64, validLength len = true ↔
    len.toNat % 1024 = 0 ∧ (∃ k, len.toNat / 1024 = 2 ^ k) ∧ 1024 ≤ len.toNat / 1024) ∧
  (∀ len : BitVec 64, validLength len = true ↔ ∃ k, 20 ≤ k ∧ k ≤ 63 ∧ len.toNat = 2 ^ k) ∧
  validLength 0 = false ∧ validLength 1024 = false ∧ validLength 1047552 = false ∧ validLength 1048576 = true ∧
  validLength 1049600 = false ∧ validLength 3145728 = false ∧ validLength 1048577 = false

/-- R171: HASH is ignored while BUSY; it reports InvalidInput for a length that is not valid, then OutOfMemory for more
chunks than the capacity, each by STATUS alone; else it latches the chunk count and starts the run. DATA is ignored. It
answers a next state on every path. The model's own: `.respond .ack` is its record of the reply
(notes/assumptions/7.md), `Team.fresh` puts the lanes at the start of the leaf level (notes/assumptions/3.md), and LVL
and NODE stay as they are, by R171 and R155 against the bracket of R39 (notes/assumptions/17.md). -/
def Obligations.HashCommand : Prop :=
  ∀ (s : State) (data : BitVec 32), let len := s.lenHi ++ s.lenLo
    (s.status.getLsbD 0 = true → exec (.hash data) s = .next (s.respond .ack)) ∧
    (s.status.getLsbD 0 = false → validLength len = false →
      exec (.hash data) s = .next ({ s with status := 0x00000006 }.respond .ack)) ∧
    (s.status.getLsbD 0 = false → validLength len = true → 2 ^ s.log2NMax.toNat < len.toNat / 1024 →
      exec (.hash data) s = .next ({ s with status := 0x0000000A }.respond .ack)) ∧
    (s.status.getLsbD 0 = false → validLength len = true → len.toNat / 1024 ≤ 2 ^ s.log2NMax.toNat →
      ∃ (nreg : BitVec 64) (logn : BitVec 6),
        nreg.toNat = len.toNat / 1024 ∧ nreg.toNat = 2 ^ logn.toNat ∧
        exec (.hash data) s = .next ({ s with
          drv := { s.drv with phase := .leaf, sub := .load, ci := 0, bj := 0, nreg := nreg, logn := logn }
          team := s.team.fresh
          status := 0x00000001 }.respond .ack))

/-- R173, R178, R179, R180, R182 (and RD_STATUS, R174): a CSR read returns its register, 0 for CTRL and the unmapped
indices, and changes nothing but the reply; in a state that meets the invariant the STATUS it returns is one of the five
legal values (R32). -/
def Obligations.CsrReadsReturnTheirRegister : Prop :=
  ∀ (s : State) (data : BitVec 32) (index : BitVec 4),
    let returns : Word → State := fun w => { s with port := { s.port with reply := some (.word w) } }
    exec (.rdCtrl data) s = .next (returns 0) ∧ exec (.rdStatus data) s = .next (returns s.status) ∧
    exec (.rdLenLo data) s = .next (returns s.lenLo) ∧ exec (.rdLenHi data) s = .next (returns s.lenHi) ∧
    exec (.rdCaps data) s = .next (returns (s.log2NMax.setWidth 32)) ∧
    exec (.rdCsrRsvd5 data) s = .next (returns 0) ∧ exec (.rdCsrRsvd6to7 index data) s = .next (returns 0) ∧
    exec (.rdCsrRsvd8to15 index data) s = .next (returns 0) ∧
    (s.Inv → s.status = 0x0 ∨ s.status = 0x1 ∨ s.status = 0x2 ∨ s.status = 0x6 ∨ s.status = 0xA)

/-- R172, R175, R181, R183: these CSR writes complete and change no state. -/
def Obligations.IgnoredCsrWrites : Prop :=
  ∀ (s : State) (data : BitVec 32) (index : BitVec 4),
    let completes : State := { s with port := { s.port with reply := some .ack } }
    exec (.ctrlNop data) s = .next completes ∧ exec (.wrStatus data) s = .next completes ∧
    exec (.wrCaps data) s = .next completes ∧ exec (.wrCsrRsvd5 data) s = .next completes ∧
    exec (.wrCsrRsvd6to7 index data) s = .next completes ∧ exec (.wrCsrRsvd8to15 index data) s = .next completes

/-- R176, R177: a LEN write takes every value, while BUSY too, writes the one register it names, and has no effect on
the run in progress: the turn of a lane is the same, but for the LEN register. -/
def Obligations.LenWrites : Prop :=
  ∀ (s : State) (data : BitVec 32),
    exec (.wrLenLo data) s = .next { s with lenLo := data, port := { s.port with reply := some .ack } } ∧
    exec (.wrLenHi data) s = .next { s with lenHi := data, port := { s.port with reply := some .ack } } ∧
    (∀ t pick, laneStep pick s = .next t → laneStep pick { s with lenLo := data } = .next { t with lenLo := data } ∧
      laneStep pick { s with lenHi := data } = .next { t with lenHi := data })

/-- R185: WR_IN is refused out of range, else refused while BUSY, else it writes the one byte `DATA32[7:0]`. -/
def Obligations.WrInWritesOneByte : Prop :=
  ∀ (s : State) (data : BitVec 32) (a : Nat),
    (1024 * 2 ^ s.log2NMax.toNat ≤ a → exec (.wrIn data a) s = .next (s.refuse [.inAddressOutOfRange])) ∧
    (a < 1024 * 2 ^ s.log2NMax.toNat → s.status.getLsbD 0 = true →
      exec (.wrIn data a) s = .next (s.refuse [.inBusy])) ∧
    (a < 1024 * 2 ^ s.log2NMax.toNat → s.status.getLsbD 0 = false → s.inMem.wf = true →
      ∃ mem : Memory,
        exec (.wrIn data a) s = .next { s with inMem := mem, port := { s.port with reply := some .ack } } ∧
        mem.wf = true ∧ mem.read a = data.extractLsb' 0 8 ∧ ∀ b, b ≠ a → mem.read b = s.inMem.read b)

/-- R186 to R188: RD_IN is refused out of range, else returns the byte, while BUSY too; RD_DOUT returns the digest byte
and WR_DOUT is ignored; both are refused for `k ≥ 32`. -/
def Obligations.InReadsAndDoutTransactions : Prop :=
  ∀ (s : State) (data : BitVec 32),
    (∀ a : Nat, 1024 * 2 ^ s.log2NMax.toNat ≤ a →
      exec (.rdIn data a) s = .next (s.refuse [.inAddressOutOfRange])) ∧
    (∀ a : Nat, a < 1024 * 2 ^ s.log2NMax.toNat →
      exec (.rdIn data a) s = .next { s with port := { s.port with reply := some (.byte (s.inRead a)) } }) ∧
    (∀ k : Fin 32,
      exec (.rdDout data k.val) s = .next { s with port := { s.port with reply := some (.byte s.dout[k]) } } ∧
      exec (.wrDout data k.val) s = .next { s with port := { s.port with reply := some .ack } }) ∧
    (∀ k : Nat, 32 ≤ k →
      exec (.rdDout data k) s = .next (s.refuse [.doutAddressOutOfRange]) ∧
      exec (.wrDout data k) s = .next (s.refuse [.doutAddressOutOfRange]))

/-- R170, R230: every host request completes or is refused, whether a run is in progress or not: it never waits. While
BUSY it changes nothing the run reads or writes: the lanes, the driver, IN, DOUT, the scratch and STATUS. -/
def Obligations.HostCannotDisturbARun : Prop :=
  ∀ (s : State) (r : HostRequest),
    ∃ t : State, hostStep r s = .next t ∧
      (s.busy = true → t = { s with lenLo := t.lenLo, lenHi := t.lenHi, port := t.port })

/-- R38 (d), R61: a core step depends on nothing the host can write during a run: with other LEN registers and another
host port it does the same to everything else, and leaves those as they are. -/
def Obligations.CoreIgnoresHostState : Prop :=
  ∀ (s : State) (pick : Nat) (lo hi : Word) (port : Port),
    laneStep pick { s with lenLo := lo, lenHi := hi, port := port } =
      match laneStep pick s with
      | .next t => .next { t with lenLo := lo, lenHi := hi, port := port }
      | .fault r => .fault r
      | .refused r => .refused r

/-- R204, R205: an error report changes STATUS alone: BUSY=0, DONE=1, ERR=code. -/
def Obligations.ErrorReportIsPrecise : Prop :=
  ∀ (s : State) (code : BitVec 2),
    s.raiseError code = { s with status := (code.setWidth 32 <<< 2) ||| 0x00000002 } ∧
    (s.raiseError code).busy = false ∧ (s.raiseError code).done = true ∧ (s.raiseError code).err = code

/-- R206: STATUS changes only by HASH while idle (accepted: 0x1; failing: 0x6 or 0xA), by EXPORT (0x2), and by a reset
(0x0). EXPORT is the step of the lane whose turn comes. -/
def Obligations.StatusChangesOnlyBy : Prop :=
  ∀ s t : State, step s = .next t → t.status ≠ s.status →
    (t.status = 0x0 ∧ s.port.inbox.head? = some .reset) ∨
    (t.status = 0x2 ∧ ∃ lane pick, s.nextTurn = some (lane, pick) ∧ (s.turnTo lane).drv.phase = .root ∧
      (s.turnTo lane).drv.sub = .store ∧ (s.turnTo lane).team.waiting = false) ∨
    ((t.status = 0x1 ∨ t.status = 0x6 ∨ t.status = 0xA) ∧ s.busy = false ∧
      ∃ r : HostRequest, r.isHash = true ∧ s.port.inbox.head? = some (.host r))

/-! ### Whole-machine rules -/

/-- R39, R40, R155 and others: the invariant holds at reset, for every capacity and every number of lanes R8 allows. Its
clause on empty memory holds of the model's choice at reset (notes/assumptions/4.md), and the parameters
`State.reset` carries are the model's (notes/assumptions/2.md, 3.md). -/
def Obligations.InvHoldsAtReset : Prop :=
  State.reset.Inv ∧ ∀ (c : BitVec 6) (lanes : Nat), 10 ≤ c.toNat → c.toNat ≤ 54 → 1 ≤ lanes →
    (State.resetWith c lanes).lanes = lanes ∧ (State.resetWith c lanes).Inv

/-- R32, R40, R50, R52, R152, R155, R165: every step from a state that meets the invariant gives a state that meets it,
whatever the next event is: a host request, a reset or a core turn. -/
def Obligations.InvKeptByEveryStep : Prop :=
  ∀ s t : State, s.Inv → step s = .next t → t.Inv

/-- R207: from a state that meets the invariant no step faults: the ROM holds no illegal word, and every IN and SCR
index the driver forms is in range. -/
def Obligations.InvStatesNeverFault : Prop :=
  ∀ s : State, s.Inv → ∃ t, step s = .next t

/-- R14, R38 (a), R152: a core step from a state that meets the invariant reads no scratch slot before it is written: it
does not depend on the free values a reset leaves in SCR, which `resets` selects. -/
def Obligations.FreeScratchNeverRead : Prop :=
  ∀ (s t : State) (pick n : Nat), s.Inv → laneStep pick s = .next t →
    laneStep pick { s with resets := n } = .next { t with resets := n }

/-- R51, R205: DOUT changes only at EXPORT, to the digest of CV of the lane whose turn comes, in the event that sets
STATUS to 0x2. -/
def Obligations.DoutChangesOnlyAtExport : Prop :=
  ∀ s t : State, step s = .next t → t.dout ≠ s.dout →
    ∃ lane pick, s.nextTurn = some (lane, pick) ∧ (s.turnTo lane).drv.phase = .root ∧
      (s.turnTo lane).drv.sub = .store ∧ (s.turnTo lane).team.waiting = false ∧
      t.dout = digestFromCv (s.turnTo lane).lane.cv ∧ t.status = 0x00000002

/-- R50, R61 (c): IN changes only by a WR_IN transaction of the host while BUSY is 0, at an address in range, and only
at that address. -/
def Obligations.InChangesOnlyByIdleWrIn : Prop :=
  ∀ s t : State, step s = .next t → t.inMem ≠ s.inMem →
    s.busy = false ∧ ∃ (data : BitVec 32) (a : Nat), a < s.inBytes ∧
      s.port.inbox.head? = some (.host (.transaction (0xA0#8 ++ data) a)) ∧
      ∀ b, b ≠ a → t.inRead b = s.inRead b

/-- R40: no step changes LOG2_NMAX, the number `P` of lanes, or the ROM. -/
def Obligations.ConfigurationIsFixed : Prop :=
  ∀ s t : State, step s = .next t → t.log2NMax = s.log2NMax ∧ t.lanes = s.lanes ∧ t.rom = s.rom

/-- R208: the mark `refused` is sticky: a step only ever adds reasons, and a step that adds one leaves the architectural
state as it was. -/
def Obligations.RefusedMarkIsSticky : Prop :=
  ∀ s t : State, step s = .next t →
    ∃ why, t.port.refused = s.port.refused ++ why ∧ (why ≠ [] → s.sameArch t)

/-- R220: the reset event sets what the rule lists, and leaves IN, DOUT, the ROM, CAPS and the mark `refused` alone;
what the rule leaves to a draw, on every lane, is the free value of that reset (`drawnLane`, `drawnSeats`,
`drawnDriver`, `drawnSlot`, of which nothing is known). -/
def Obligations.ResetEvent : Prop :=
  ∀ (s : State) (rest : List Event), s.port.inbox = .reset :: rest →
    ∃ t : State, step s = .next t ∧
      t.drv.phase = .idle ∧ t.drv.sub = .load ∧ t.lane.upc = 0 ∧ t.status = 0x00000000 ∧
      t.lenLo = 0 ∧ t.lenHi = 0 ∧ t.resets = s.resets + 1 ∧
      t.lane = drawnLane (s.resets + 1) 0 ∧ t.drv = drawnDriver (s.resets + 1) ∧
      t.team.parked = drawnSeats (s.resets + 1) 1 s.team.parked ∧ t.lanes = s.lanes ∧
      (∀ p ∈ t.team.parked, p.sub = .load ∧ p.lane.upc = 0) ∧
      (∀ b k, t.scrRead b k = drawnSlot (s.resets + 1) (b % 2) k) ∧
      t.inMem = s.inMem ∧ t.dout = s.dout ∧ t.rom = s.rom ∧ t.log2NMax = s.log2NMax ∧
      t.port.refused = s.port.refused ∧ t.port.reply = s.port.reply ∧ t.port.inbox = rest

/-- R39, R40, R221: what reset leaves, as the spec gives it, for every capacity and every number of lanes; with nothing on
the host port the machine waits there. `State.reset` is that state for the parameters of notes/assumptions/2.md and
3.md. -/
def Obligations.ResetValues : Prop :=
  State.reset = State.resetWith 12 1 ∧ ∀ (c : BitVec 6) (lanes : Nat), 1 ≤ lanes → let r := State.resetWith c lanes
    r.lane.upc = 0 ∧ r.drv.phase = .idle ∧ r.drv.sub = .load ∧ r.status = 0x00000000 ∧ r.lenLo = 0 ∧ r.lenHi = 0 ∧
    r.rom = uopRom ∧ exec (.rdCaps 0) r = .next (r.respond (.word (c.setWidth 32))) ∧ r.lanes = lanes ∧
    (∀ p ∈ r.team.parked, p.lane.upc = 0 ∧ p.sub = .load) ∧ step r = .next r

/-- A step runs the decoded instruction. When a lane's turn comes, the lane has a task in RUN and `Rom[upc]` decodes
to a well-formed `i`, the step is `exec` of `i` at the state with the event taken off the inbox and the turn at that
lane, and then `State.afterUop`. When the next event is a host transaction that decodes to a well-formed `i`, the step
is `exec` of `i` at the state with the event taken off the inbox. -/
def Obligations.StepRunsDecodedInstruction : Prop :=
  (∀ (s t : State) (i : Instr) (lane pick : Nat), s.nextTurn = some (lane, pick) → s.drv.phase ≠ .idle →
    let u := (s.withInbox s.port.inbox.tail).turnTo lane
    u.team.waiting = false → u.drv.sub = .run → decode (.uop u.fetchUop) = .ok i → i.wellFormed = true →
    exec i u = .next t → step s = .next t.afterUop) ∧
  (∀ (s : State) (i : Instr) (htw : BitVec 40) (addr : Nat) (rest : List Event),
    s.port.inbox = .host (.transaction htw addr) :: rest → decode (.host htw addr) = .ok i →
    i.wellFormed = true → step s = exec i (s.withInbox rest))
end

