-- ==== Sys2Proof/Laws/State.lean ====
section
/-! SUPPORT. What each shared update does to each field of State: one lemma per field per update. -/

namespace Sys2Proof.Machine

variable (s : State)

/-! ### `State.respond` -/

@[simp] theorem State.respond_lane (r : Reply) : (s.respond r).lane = s.lane := rfl
@[simp] theorem State.respond_drv (r : Reply) : (s.respond r).drv = s.drv := rfl
@[simp] theorem State.respond_team (r : Reply) : (s.respond r).team = s.team := rfl
@[simp] theorem State.respond_status (r : Reply) : (s.respond r).status = s.status := rfl
@[simp] theorem State.respond_lenLo (r : Reply) : (s.respond r).lenLo = s.lenLo := rfl
@[simp] theorem State.respond_lenHi (r : Reply) : (s.respond r).lenHi = s.lenHi := rfl
@[simp] theorem State.respond_log2NMax (r : Reply) : (s.respond r).log2NMax = s.log2NMax := rfl
@[simp] theorem State.respond_rom (r : Reply) : (s.respond r).rom = s.rom := rfl
@[simp] theorem State.respond_inMem (r : Reply) : (s.respond r).inMem = s.inMem := rfl
@[simp] theorem State.respond_dout (r : Reply) : (s.respond r).dout = s.dout := rfl
@[simp] theorem State.respond_scr0 (r : Reply) : (s.respond r).scr0 = s.scr0 := rfl
@[simp] theorem State.respond_scr1 (r : Reply) : (s.respond r).scr1 = s.scr1 := rfl
@[simp] theorem State.respond_resets (r : Reply) : (s.respond r).resets = s.resets := rfl
@[simp] theorem State.respond_port (r : Reply) : (s.respond r).port = { s.port with reply := some r } := rfl

/-! ### `State.refuse` -/

@[simp] theorem State.refuse_lane (why : List RefuseReason) : (s.refuse why).lane = s.lane := rfl
@[simp] theorem State.refuse_drv (why : List RefuseReason) : (s.refuse why).drv = s.drv := rfl
@[simp] theorem State.refuse_team (why : List RefuseReason) : (s.refuse why).team = s.team := rfl
@[simp] theorem State.refuse_status (why : List RefuseReason) : (s.refuse why).status = s.status := rfl
@[simp] theorem State.refuse_lenLo (why : List RefuseReason) : (s.refuse why).lenLo = s.lenLo := rfl
@[simp] theorem State.refuse_lenHi (why : List RefuseReason) : (s.refuse why).lenHi = s.lenHi := rfl
@[simp] theorem State.refuse_log2NMax (why : List RefuseReason) : (s.refuse why).log2NMax = s.log2NMax := rfl
@[simp] theorem State.refuse_rom (why : List RefuseReason) : (s.refuse why).rom = s.rom := rfl
@[simp] theorem State.refuse_inMem (why : List RefuseReason) : (s.refuse why).inMem = s.inMem := rfl
@[simp] theorem State.refuse_dout (why : List RefuseReason) : (s.refuse why).dout = s.dout := rfl
@[simp] theorem State.refuse_scr0 (why : List RefuseReason) : (s.refuse why).scr0 = s.scr0 := rfl
@[simp] theorem State.refuse_scr1 (why : List RefuseReason) : (s.refuse why).scr1 = s.scr1 := rfl
@[simp] theorem State.refuse_resets (why : List RefuseReason) : (s.refuse why).resets = s.resets := rfl
@[simp] theorem State.refuse_port (why : List RefuseReason) : (s.refuse why).port = { s.port with reply := none, refused := s.port.refused ++ why } := rfl

/-! ### `State.raiseError` -/

@[simp] theorem State.raiseError_lane (code : BitVec 2) : (s.raiseError code).lane = s.lane := rfl
@[simp] theorem State.raiseError_drv (code : BitVec 2) : (s.raiseError code).drv = s.drv := rfl
@[simp] theorem State.raiseError_team (code : BitVec 2) : (s.raiseError code).team = s.team := rfl
@[simp] theorem State.raiseError_status (code : BitVec 2) : (s.raiseError code).status = statusError code := rfl
@[simp] theorem State.raiseError_lenLo (code : BitVec 2) : (s.raiseError code).lenLo = s.lenLo := rfl
@[simp] theorem State.raiseError_lenHi (code : BitVec 2) : (s.raiseError code).lenHi = s.lenHi := rfl
@[simp] theorem State.raiseError_log2NMax (code : BitVec 2) : (s.raiseError code).log2NMax = s.log2NMax := rfl
@[simp] theorem State.raiseError_rom (code : BitVec 2) : (s.raiseError code).rom = s.rom := rfl
@[simp] theorem State.raiseError_inMem (code : BitVec 2) : (s.raiseError code).inMem = s.inMem := rfl
@[simp] theorem State.raiseError_dout (code : BitVec 2) : (s.raiseError code).dout = s.dout := rfl
@[simp] theorem State.raiseError_scr0 (code : BitVec 2) : (s.raiseError code).scr0 = s.scr0 := rfl
@[simp] theorem State.raiseError_scr1 (code : BitVec 2) : (s.raiseError code).scr1 = s.scr1 := rfl
@[simp] theorem State.raiseError_resets (code : BitVec 2) : (s.raiseError code).resets = s.resets := rfl
@[simp] theorem State.raiseError_port (code : BitVec 2) : (s.raiseError code).port = s.port := rfl

/-! ### `State.startRun` -/

@[simp] theorem State.startRun_lane (chunks : Nat) : (s.startRun chunks).lane = s.lane := rfl
@[simp] theorem State.startRun_team (chunks : Nat) : (s.startRun chunks).team = s.team.fresh := rfl
@[simp] theorem State.startRun_status (chunks : Nat) : (s.startRun chunks).status = statusBusy := rfl
@[simp] theorem State.startRun_lenLo (chunks : Nat) : (s.startRun chunks).lenLo = s.lenLo := rfl
@[simp] theorem State.startRun_lenHi (chunks : Nat) : (s.startRun chunks).lenHi = s.lenHi := rfl
@[simp] theorem State.startRun_log2NMax (chunks : Nat) : (s.startRun chunks).log2NMax = s.log2NMax := rfl
@[simp] theorem State.startRun_rom (chunks : Nat) : (s.startRun chunks).rom = s.rom := rfl
@[simp] theorem State.startRun_inMem (chunks : Nat) : (s.startRun chunks).inMem = s.inMem := rfl
@[simp] theorem State.startRun_dout (chunks : Nat) : (s.startRun chunks).dout = s.dout := rfl
@[simp] theorem State.startRun_scr0 (chunks : Nat) : (s.startRun chunks).scr0 = s.scr0 := rfl
@[simp] theorem State.startRun_scr1 (chunks : Nat) : (s.startRun chunks).scr1 = s.scr1 := rfl
@[simp] theorem State.startRun_resets (chunks : Nat) : (s.startRun chunks).resets = s.resets := rfl
@[simp] theorem State.startRun_port (chunks : Nat) : (s.startRun chunks).port = s.port := rfl

/-! ### `State.inWrite` -/

@[simp] theorem State.inWrite_lane (a : Nat) (v : Byte) : (s.inWrite a v).lane = s.lane := rfl
@[simp] theorem State.inWrite_drv (a : Nat) (v : Byte) : (s.inWrite a v).drv = s.drv := rfl
@[simp] theorem State.inWrite_team (a : Nat) (v : Byte) : (s.inWrite a v).team = s.team := rfl
@[simp] theorem State.inWrite_status (a : Nat) (v : Byte) : (s.inWrite a v).status = s.status := rfl
@[simp] theorem State.inWrite_lenLo (a : Nat) (v : Byte) : (s.inWrite a v).lenLo = s.lenLo := rfl
@[simp] theorem State.inWrite_lenHi (a : Nat) (v : Byte) : (s.inWrite a v).lenHi = s.lenHi := rfl
@[simp] theorem State.inWrite_log2NMax (a : Nat) (v : Byte) : (s.inWrite a v).log2NMax = s.log2NMax := rfl
@[simp] theorem State.inWrite_rom (a : Nat) (v : Byte) : (s.inWrite a v).rom = s.rom := rfl
@[simp] theorem State.inWrite_inMem (a : Nat) (v : Byte) : (s.inWrite a v).inMem = s.inMem.write a v := rfl
@[simp] theorem State.inWrite_dout (a : Nat) (v : Byte) : (s.inWrite a v).dout = s.dout := rfl
@[simp] theorem State.inWrite_scr0 (a : Nat) (v : Byte) : (s.inWrite a v).scr0 = s.scr0 := rfl
@[simp] theorem State.inWrite_scr1 (a : Nat) (v : Byte) : (s.inWrite a v).scr1 = s.scr1 := rfl
@[simp] theorem State.inWrite_resets (a : Nat) (v : Byte) : (s.inWrite a v).resets = s.resets := rfl
@[simp] theorem State.inWrite_port (a : Nat) (v : Byte) : (s.inWrite a v).port = s.port := rfl

/-! ### `State.doutWriteAll` -/

@[simp] theorem State.doutWriteAll_lane (d : Vector Byte 32) : (s.doutWriteAll d).lane = s.lane := rfl
@[simp] theorem State.doutWriteAll_drv (d : Vector Byte 32) : (s.doutWriteAll d).drv = s.drv := rfl
@[simp] theorem State.doutWriteAll_team (d : Vector Byte 32) : (s.doutWriteAll d).team = s.team := rfl
@[simp] theorem State.doutWriteAll_status (d : Vector Byte 32) : (s.doutWriteAll d).status = s.status := rfl
@[simp] theorem State.doutWriteAll_lenLo (d : Vector Byte 32) : (s.doutWriteAll d).lenLo = s.lenLo := rfl
@[simp] theorem State.doutWriteAll_lenHi (d : Vector Byte 32) : (s.doutWriteAll d).lenHi = s.lenHi := rfl
@[simp] theorem State.doutWriteAll_log2NMax (d : Vector Byte 32) : (s.doutWriteAll d).log2NMax = s.log2NMax := rfl
@[simp] theorem State.doutWriteAll_rom (d : Vector Byte 32) : (s.doutWriteAll d).rom = s.rom := rfl
@[simp] theorem State.doutWriteAll_inMem (d : Vector Byte 32) : (s.doutWriteAll d).inMem = s.inMem := rfl
@[simp] theorem State.doutWriteAll_dout (d : Vector Byte 32) : (s.doutWriteAll d).dout = d := rfl
@[simp] theorem State.doutWriteAll_scr0 (d : Vector Byte 32) : (s.doutWriteAll d).scr0 = s.scr0 := rfl
@[simp] theorem State.doutWriteAll_scr1 (d : Vector Byte 32) : (s.doutWriteAll d).scr1 = s.scr1 := rfl
@[simp] theorem State.doutWriteAll_resets (d : Vector Byte 32) : (s.doutWriteAll d).resets = s.resets := rfl
@[simp] theorem State.doutWriteAll_port (d : Vector Byte 32) : (s.doutWriteAll d).port = s.port := rfl

/-! ### `State.withInbox` -/

@[simp] theorem State.withInbox_lane (inbox : List Event) : (s.withInbox inbox).lane = s.lane := rfl
@[simp] theorem State.withInbox_drv (inbox : List Event) : (s.withInbox inbox).drv = s.drv := rfl
@[simp] theorem State.withInbox_team (inbox : List Event) : (s.withInbox inbox).team = s.team := rfl
@[simp] theorem State.withInbox_status (inbox : List Event) : (s.withInbox inbox).status = s.status := rfl
@[simp] theorem State.withInbox_lenLo (inbox : List Event) : (s.withInbox inbox).lenLo = s.lenLo := rfl
@[simp] theorem State.withInbox_lenHi (inbox : List Event) : (s.withInbox inbox).lenHi = s.lenHi := rfl
@[simp] theorem State.withInbox_log2NMax (inbox : List Event) : (s.withInbox inbox).log2NMax = s.log2NMax := rfl
@[simp] theorem State.withInbox_rom (inbox : List Event) : (s.withInbox inbox).rom = s.rom := rfl
@[simp] theorem State.withInbox_inMem (inbox : List Event) : (s.withInbox inbox).inMem = s.inMem := rfl
@[simp] theorem State.withInbox_dout (inbox : List Event) : (s.withInbox inbox).dout = s.dout := rfl
@[simp] theorem State.withInbox_scr0 (inbox : List Event) : (s.withInbox inbox).scr0 = s.scr0 := rfl
@[simp] theorem State.withInbox_scr1 (inbox : List Event) : (s.withInbox inbox).scr1 = s.scr1 := rfl
@[simp] theorem State.withInbox_resets (inbox : List Event) : (s.withInbox inbox).resets = s.resets := rfl
@[simp] theorem State.withInbox_port (inbox : List Event) : (s.withInbox inbox).port = { s.port with inbox := inbox } := rfl

/-! ### `State.resetEvent` -/

@[simp] theorem State.resetEvent_lane : s.resetEvent.lane = drawnLane (s.resets + 1) 0 := rfl
@[simp] theorem State.resetEvent_drv : s.resetEvent.drv = drawnDriver (s.resets + 1) := rfl
@[simp] theorem State.resetEvent_team : s.resetEvent.team = { waiting := false, parked := drawnSeats (s.resets + 1) 1 s.team.parked, taken := [], stored := 0 } := rfl
@[simp] theorem State.resetEvent_status : s.resetEvent.status = 0 := rfl
@[simp] theorem State.resetEvent_lenLo : s.resetEvent.lenLo = 0 := rfl
@[simp] theorem State.resetEvent_lenHi : s.resetEvent.lenHi = 0 := rfl
@[simp] theorem State.resetEvent_log2NMax : s.resetEvent.log2NMax = s.log2NMax := rfl
@[simp] theorem State.resetEvent_rom : s.resetEvent.rom = s.rom := rfl
@[simp] theorem State.resetEvent_inMem : s.resetEvent.inMem = s.inMem := rfl
@[simp] theorem State.resetEvent_dout : s.resetEvent.dout = s.dout := rfl
@[simp] theorem State.resetEvent_scr0 : s.resetEvent.scr0 = [] := rfl
@[simp] theorem State.resetEvent_scr1 : s.resetEvent.scr1 = [] := rfl
@[simp] theorem State.resetEvent_resets : s.resetEvent.resets = s.resets + 1 := rfl
@[simp] theorem State.resetEvent_port : s.resetEvent.port = s.port := rfl

/-! ### `State.loadOperands` -/

@[simp] theorem State.loadOperands_lane (cv : CVal) (m : Block) (cnt : BitVec 64) (flg : Word) : (s.loadOperands cv m cnt flg).lane = { s.lane with cv := cv, m := m, cnt := cnt, blen := 64, flg := flg, upc := 0 } := rfl
@[simp] theorem State.loadOperands_drv (cv : CVal) (m : Block) (cnt : BitVec 64) (flg : Word) : (s.loadOperands cv m cnt flg).drv = { s.drv with sub := .run } := rfl
@[simp] theorem State.loadOperands_team (cv : CVal) (m : Block) (cnt : BitVec 64) (flg : Word) : (s.loadOperands cv m cnt flg).team = s.team := rfl
@[simp] theorem State.loadOperands_status (cv : CVal) (m : Block) (cnt : BitVec 64) (flg : Word) : (s.loadOperands cv m cnt flg).status = s.status := rfl
@[simp] theorem State.loadOperands_lenLo (cv : CVal) (m : Block) (cnt : BitVec 64) (flg : Word) : (s.loadOperands cv m cnt flg).lenLo = s.lenLo := rfl
@[simp] theorem State.loadOperands_lenHi (cv : CVal) (m : Block) (cnt : BitVec 64) (flg : Word) : (s.loadOperands cv m cnt flg).lenHi = s.lenHi := rfl
@[simp] theorem State.loadOperands_log2NMax (cv : CVal) (m : Block) (cnt : BitVec 64) (flg : Word) : (s.loadOperands cv m cnt flg).log2NMax = s.log2NMax := rfl
@[simp] theorem State.loadOperands_rom (cv : CVal) (m : Block) (cnt : BitVec 64) (flg : Word) : (s.loadOperands cv m cnt flg).rom = s.rom := rfl
@[simp] theorem State.loadOperands_inMem (cv : CVal) (m : Block) (cnt : BitVec 64) (flg : Word) : (s.loadOperands cv m cnt flg).inMem = s.inMem := rfl
@[simp] theorem State.loadOperands_dout (cv : CVal) (m : Block) (cnt : BitVec 64) (flg : Word) : (s.loadOperands cv m cnt flg).dout = s.dout := rfl
@[simp] theorem State.loadOperands_scr0 (cv : CVal) (m : Block) (cnt : BitVec 64) (flg : Word) : (s.loadOperands cv m cnt flg).scr0 = s.scr0 := rfl
@[simp] theorem State.loadOperands_scr1 (cv : CVal) (m : Block) (cnt : BitVec 64) (flg : Word) : (s.loadOperands cv m cnt flg).scr1 = s.scr1 := rfl
@[simp] theorem State.loadOperands_resets (cv : CVal) (m : Block) (cnt : BitVec 64) (flg : Word) : (s.loadOperands cv m cnt flg).resets = s.resets := rfl
@[simp] theorem State.loadOperands_port (cv : CVal) (m : Block) (cnt : BitVec 64) (flg : Word) : (s.loadOperands cv m cnt flg).port = s.port := rfl

/-! ### `State.scrWrite`, the one update that chooses its field by the bank -/

@[simp] theorem State.scrWrite_lane (b k : Nat) (cv : CVal) : (s.scrWrite b k cv).lane = s.lane := by
  unfold State.scrWrite; split <;> rfl
@[simp] theorem State.scrWrite_drv (b k : Nat) (cv : CVal) : (s.scrWrite b k cv).drv = s.drv := by
  unfold State.scrWrite; split <;> rfl
@[simp] theorem State.scrWrite_team (b k : Nat) (cv : CVal) : (s.scrWrite b k cv).team = s.team := by
  unfold State.scrWrite; split <;> rfl
@[simp] theorem State.scrWrite_status (b k : Nat) (cv : CVal) : (s.scrWrite b k cv).status = s.status := by
  unfold State.scrWrite; split <;> rfl
@[simp] theorem State.scrWrite_lenLo (b k : Nat) (cv : CVal) : (s.scrWrite b k cv).lenLo = s.lenLo := by
  unfold State.scrWrite; split <;> rfl
@[simp] theorem State.scrWrite_lenHi (b k : Nat) (cv : CVal) : (s.scrWrite b k cv).lenHi = s.lenHi := by
  unfold State.scrWrite; split <;> rfl
@[simp] theorem State.scrWrite_log2NMax (b k : Nat) (cv : CVal) : (s.scrWrite b k cv).log2NMax = s.log2NMax := by
  unfold State.scrWrite; split <;> rfl
@[simp] theorem State.scrWrite_rom (b k : Nat) (cv : CVal) : (s.scrWrite b k cv).rom = s.rom := by
  unfold State.scrWrite; split <;> rfl
@[simp] theorem State.scrWrite_inMem (b k : Nat) (cv : CVal) : (s.scrWrite b k cv).inMem = s.inMem := by
  unfold State.scrWrite; split <;> rfl
@[simp] theorem State.scrWrite_dout (b k : Nat) (cv : CVal) : (s.scrWrite b k cv).dout = s.dout := by
  unfold State.scrWrite; split <;> rfl
@[simp] theorem State.scrWrite_resets (b k : Nat) (cv : CVal) : (s.scrWrite b k cv).resets = s.resets := by
  unfold State.scrWrite; split <;> rfl
@[simp] theorem State.scrWrite_port (b k : Nat) (cv : CVal) : (s.scrWrite b k cv).port = s.port := by
  unfold State.scrWrite; split <;> rfl

/-! ### `State.afterUop`: the lane and the driver only -/

@[simp] theorem State.afterUop_team : s.afterUop.team = s.team := by
  unfold State.afterUop; split <;> rfl
@[simp] theorem State.afterUop_status : s.afterUop.status = s.status := by
  unfold State.afterUop; split <;> rfl
@[simp] theorem State.afterUop_lenLo : s.afterUop.lenLo = s.lenLo := by
  unfold State.afterUop; split <;> rfl
@[simp] theorem State.afterUop_lenHi : s.afterUop.lenHi = s.lenHi := by
  unfold State.afterUop; split <;> rfl
@[simp] theorem State.afterUop_log2NMax : s.afterUop.log2NMax = s.log2NMax := by
  unfold State.afterUop; split <;> rfl
@[simp] theorem State.afterUop_rom : s.afterUop.rom = s.rom := by
  unfold State.afterUop; split <;> rfl
@[simp] theorem State.afterUop_inMem : s.afterUop.inMem = s.inMem := by
  unfold State.afterUop; split <;> rfl
@[simp] theorem State.afterUop_dout : s.afterUop.dout = s.dout := by
  unfold State.afterUop; split <;> rfl
@[simp] theorem State.afterUop_scr0 : s.afterUop.scr0 = s.scr0 := by
  unfold State.afterUop; split <;> rfl
@[simp] theorem State.afterUop_scr1 : s.afterUop.scr1 = s.scr1 := by
  unfold State.afterUop; split <;> rfl
@[simp] theorem State.afterUop_resets : s.afterUop.resets = s.resets := by
  unfold State.afterUop; split <;> rfl
@[simp] theorem State.afterUop_port : s.afterUop.port = s.port := by
  unfold State.afterUop; split <;> rfl

/-! ### `State.passTurn`: the lane, the driver and the team only -/

@[simp] theorem State.passTurn_status : s.passTurn.status = s.status := by
  unfold State.passTurn; split <;> rfl
@[simp] theorem State.passTurn_lenLo : s.passTurn.lenLo = s.lenLo := by
  unfold State.passTurn; split <;> rfl
@[simp] theorem State.passTurn_lenHi : s.passTurn.lenHi = s.lenHi := by
  unfold State.passTurn; split <;> rfl
@[simp] theorem State.passTurn_log2NMax : s.passTurn.log2NMax = s.log2NMax := by
  unfold State.passTurn; split <;> rfl
@[simp] theorem State.passTurn_rom : s.passTurn.rom = s.rom := by
  unfold State.passTurn; split <;> rfl
@[simp] theorem State.passTurn_inMem : s.passTurn.inMem = s.inMem := by
  unfold State.passTurn; split <;> rfl
@[simp] theorem State.passTurn_dout : s.passTurn.dout = s.dout := by
  unfold State.passTurn; split <;> rfl
@[simp] theorem State.passTurn_scr0 : s.passTurn.scr0 = s.scr0 := by
  unfold State.passTurn; split <;> rfl
@[simp] theorem State.passTurn_scr1 : s.passTurn.scr1 = s.scr1 := by
  unfold State.passTurn; split <;> rfl
@[simp] theorem State.passTurn_resets : s.passTurn.resets = s.resets := by
  unfold State.passTurn; split <;> rfl
@[simp] theorem State.passTurn_port : s.passTurn.port = s.port := by
  unfold State.passTurn; split <;> rfl

/-! ### `State.turnTo`: the lane, the driver and the team only -/

@[simp] theorem State.turnTo_status (n : Nat) : (s.turnTo n).status = s.status := by
  induction n generalizing s with
  | zero => rfl
  | succ n ih => rw [State.turnTo, ih, State.passTurn_status]
@[simp] theorem State.turnTo_lenLo (n : Nat) : (s.turnTo n).lenLo = s.lenLo := by
  induction n generalizing s with
  | zero => rfl
  | succ n ih => rw [State.turnTo, ih, State.passTurn_lenLo]
@[simp] theorem State.turnTo_lenHi (n : Nat) : (s.turnTo n).lenHi = s.lenHi := by
  induction n generalizing s with
  | zero => rfl
  | succ n ih => rw [State.turnTo, ih, State.passTurn_lenHi]
@[simp] theorem State.turnTo_log2NMax (n : Nat) : (s.turnTo n).log2NMax = s.log2NMax := by
  induction n generalizing s with
  | zero => rfl
  | succ n ih => rw [State.turnTo, ih, State.passTurn_log2NMax]
@[simp] theorem State.turnTo_rom (n : Nat) : (s.turnTo n).rom = s.rom := by
  induction n generalizing s with
  | zero => rfl
  | succ n ih => rw [State.turnTo, ih, State.passTurn_rom]
@[simp] theorem State.turnTo_inMem (n : Nat) : (s.turnTo n).inMem = s.inMem := by
  induction n generalizing s with
  | zero => rfl
  | succ n ih => rw [State.turnTo, ih, State.passTurn_inMem]
@[simp] theorem State.turnTo_dout (n : Nat) : (s.turnTo n).dout = s.dout := by
  induction n generalizing s with
  | zero => rfl
  | succ n ih => rw [State.turnTo, ih, State.passTurn_dout]
@[simp] theorem State.turnTo_scr0 (n : Nat) : (s.turnTo n).scr0 = s.scr0 := by
  induction n generalizing s with
  | zero => rfl
  | succ n ih => rw [State.turnTo, ih, State.passTurn_scr0]
@[simp] theorem State.turnTo_scr1 (n : Nat) : (s.turnTo n).scr1 = s.scr1 := by
  induction n generalizing s with
  | zero => rfl
  | succ n ih => rw [State.turnTo, ih, State.passTurn_scr1]
@[simp] theorem State.turnTo_resets (n : Nat) : (s.turnTo n).resets = s.resets := by
  induction n generalizing s with
  | zero => rfl
  | succ n ih => rw [State.turnTo, ih, State.passTurn_resets]
@[simp] theorem State.turnTo_port (n : Nat) : (s.turnTo n).port = s.port := by
  induction n generalizing s with
  | zero => rfl
  | succ n ih => rw [State.turnTo, ih, State.passTurn_port]

/-! ### `State.take`: the lane, the driver and the team only -/

@[simp] theorem State.take_status (k : Nat) : (s.take k).status = s.status := rfl
@[simp] theorem State.take_lenLo (k : Nat) : (s.take k).lenLo = s.lenLo := rfl
@[simp] theorem State.take_lenHi (k : Nat) : (s.take k).lenHi = s.lenHi := rfl
@[simp] theorem State.take_log2NMax (k : Nat) : (s.take k).log2NMax = s.log2NMax := rfl
@[simp] theorem State.take_rom (k : Nat) : (s.take k).rom = s.rom := rfl
@[simp] theorem State.take_inMem (k : Nat) : (s.take k).inMem = s.inMem := rfl
@[simp] theorem State.take_dout (k : Nat) : (s.take k).dout = s.dout := rfl
@[simp] theorem State.take_scr0 (k : Nat) : (s.take k).scr0 = s.scr0 := rfl
@[simp] theorem State.take_scr1 (k : Nat) : (s.take k).scr1 = s.scr1 := rfl
@[simp] theorem State.take_resets (k : Nat) : (s.take k).resets = s.resets := rfl
@[simp] theorem State.take_port (k : Nat) : (s.take k).port = s.port := rfl

/-! ### `State.takeTask`: the lane, the driver and the team only -/

@[simp] theorem State.takeTask_status (pick : Nat) : (s.takeTask pick).status = s.status := by
  unfold State.takeTask; split <;> simp
@[simp] theorem State.takeTask_lenLo (pick : Nat) : (s.takeTask pick).lenLo = s.lenLo := by
  unfold State.takeTask; split <;> simp
@[simp] theorem State.takeTask_lenHi (pick : Nat) : (s.takeTask pick).lenHi = s.lenHi := by
  unfold State.takeTask; split <;> simp
@[simp] theorem State.takeTask_log2NMax (pick : Nat) : (s.takeTask pick).log2NMax = s.log2NMax := by
  unfold State.takeTask; split <;> simp
@[simp] theorem State.takeTask_rom (pick : Nat) : (s.takeTask pick).rom = s.rom := by
  unfold State.takeTask; split <;> simp
@[simp] theorem State.takeTask_inMem (pick : Nat) : (s.takeTask pick).inMem = s.inMem := by
  unfold State.takeTask; split <;> simp
@[simp] theorem State.takeTask_dout (pick : Nat) : (s.takeTask pick).dout = s.dout := by
  unfold State.takeTask; split <;> simp
@[simp] theorem State.takeTask_scr0 (pick : Nat) : (s.takeTask pick).scr0 = s.scr0 := by
  unfold State.takeTask; split <;> simp
@[simp] theorem State.takeTask_scr1 (pick : Nat) : (s.takeTask pick).scr1 = s.scr1 := by
  unfold State.takeTask; split <;> simp
@[simp] theorem State.takeTask_resets (pick : Nat) : (s.takeTask pick).resets = s.resets := by
  unfold State.takeTask; split <;> simp
@[simp] theorem State.takeTask_port (pick : Nat) : (s.takeTask pick).port = s.port := by
  unfold State.takeTask; split <;> simp

/-! ### `State.afterStore`: the lane, the driver and the team only -/

@[simp] theorem State.afterStore_status (alone next : Driver) : (s.afterStore alone next).status = s.status := by
  unfold State.afterStore; split_ifs <;> rfl
@[simp] theorem State.afterStore_lenLo (alone next : Driver) : (s.afterStore alone next).lenLo = s.lenLo := by
  unfold State.afterStore; split_ifs <;> rfl
@[simp] theorem State.afterStore_lenHi (alone next : Driver) : (s.afterStore alone next).lenHi = s.lenHi := by
  unfold State.afterStore; split_ifs <;> rfl
@[simp] theorem State.afterStore_log2NMax (alone next : Driver) : (s.afterStore alone next).log2NMax = s.log2NMax := by
  unfold State.afterStore; split_ifs <;> rfl
@[simp] theorem State.afterStore_rom (alone next : Driver) : (s.afterStore alone next).rom = s.rom := by
  unfold State.afterStore; split_ifs <;> rfl
@[simp] theorem State.afterStore_inMem (alone next : Driver) : (s.afterStore alone next).inMem = s.inMem := by
  unfold State.afterStore; split_ifs <;> rfl
@[simp] theorem State.afterStore_dout (alone next : Driver) : (s.afterStore alone next).dout = s.dout := by
  unfold State.afterStore; split_ifs <;> rfl
@[simp] theorem State.afterStore_scr0 (alone next : Driver) : (s.afterStore alone next).scr0 = s.scr0 := by
  unfold State.afterStore; split_ifs <;> rfl
@[simp] theorem State.afterStore_scr1 (alone next : Driver) : (s.afterStore alone next).scr1 = s.scr1 := by
  unfold State.afterStore; split_ifs <;> rfl
@[simp] theorem State.afterStore_resets (alone next : Driver) : (s.afterStore alone next).resets = s.resets := by
  unfold State.afterStore; split_ifs <;> rfl
@[simp] theorem State.afterStore_port (alone next : Driver) : (s.afterStore alone next).port = s.port := by
  unfold State.afterStore; split_ifs <;> rfl

/-! ### `State.afterLeaf`: the lane, the driver and the team only -/

@[simp] theorem State.afterLeaf_status : s.afterLeaf.status = s.status := by
  simp [State.afterLeaf]
@[simp] theorem State.afterLeaf_lenLo : s.afterLeaf.lenLo = s.lenLo := by
  simp [State.afterLeaf]
@[simp] theorem State.afterLeaf_lenHi : s.afterLeaf.lenHi = s.lenHi := by
  simp [State.afterLeaf]
@[simp] theorem State.afterLeaf_log2NMax : s.afterLeaf.log2NMax = s.log2NMax := by
  simp [State.afterLeaf]
@[simp] theorem State.afterLeaf_rom : s.afterLeaf.rom = s.rom := by
  simp [State.afterLeaf]
@[simp] theorem State.afterLeaf_inMem : s.afterLeaf.inMem = s.inMem := by
  simp [State.afterLeaf]
@[simp] theorem State.afterLeaf_dout : s.afterLeaf.dout = s.dout := by
  simp [State.afterLeaf]
@[simp] theorem State.afterLeaf_scr0 : s.afterLeaf.scr0 = s.scr0 := by
  simp [State.afterLeaf]
@[simp] theorem State.afterLeaf_scr1 : s.afterLeaf.scr1 = s.scr1 := by
  simp [State.afterLeaf]
@[simp] theorem State.afterLeaf_resets : s.afterLeaf.resets = s.resets := by
  simp [State.afterLeaf]
@[simp] theorem State.afterLeaf_port : s.afterLeaf.port = s.port := by
  simp [State.afterLeaf]

/-! ### `State.afterParent`: the lane, the driver and the team only -/

@[simp] theorem State.afterParent_status : s.afterParent.status = s.status := by
  simp [State.afterParent]
@[simp] theorem State.afterParent_lenLo : s.afterParent.lenLo = s.lenLo := by
  simp [State.afterParent]
@[simp] theorem State.afterParent_lenHi : s.afterParent.lenHi = s.lenHi := by
  simp [State.afterParent]
@[simp] theorem State.afterParent_log2NMax : s.afterParent.log2NMax = s.log2NMax := by
  simp [State.afterParent]
@[simp] theorem State.afterParent_rom : s.afterParent.rom = s.rom := by
  simp [State.afterParent]
@[simp] theorem State.afterParent_inMem : s.afterParent.inMem = s.inMem := by
  simp [State.afterParent]
@[simp] theorem State.afterParent_dout : s.afterParent.dout = s.dout := by
  simp [State.afterParent]
@[simp] theorem State.afterParent_scr0 : s.afterParent.scr0 = s.scr0 := by
  simp [State.afterParent]
@[simp] theorem State.afterParent_scr1 : s.afterParent.scr1 = s.scr1 := by
  simp [State.afterParent]
@[simp] theorem State.afterParent_resets : s.afterParent.resets = s.resets := by
  simp [State.afterParent]
@[simp] theorem State.afterParent_port : s.afterParent.port = s.port := by
  simp [State.afterParent]

/-! ### What depends on the capacity only -/

@[simp] theorem State.nMax_pos : 0 < s.nMax := Nat.two_pow_pos _

theorem State.inBytes_eq : s.inBytes = 1024 * s.nMax := rfl

/-! ### Architectural state -/

theorem State.sameArch_refl : s.sameArch s := rfl

theorem State.respond_sameArch (r : Reply) : s.sameArch (s.respond r) := rfl

theorem State.refuse_sameArch (why : List RefuseReason) : s.sameArch (s.refuse why) := rfl

end Sys2Proof.Machine
end

