-- ==== Sys2Proof/Laws/Memory.lean ====
section
/-! SUPPORT. The laws of the byte memory and of the scratch banks: read after write, and the canonical form. -/

namespace Sys2Proof.Machine

/-! ### `tabulate` -/

@[simp] theorem getElem_tabulate {α : Type} (n : Nat) (f : Fin n → α) (i : Nat) (h : i < n) :
    (tabulate n f)[i] = f ⟨i, h⟩ := by
  simp [tabulate]

/-! ### Byte memory -/

theorem Memory.read_put_same (a : Nat) (v : Byte) (rest : Memory)
    (h : rest.all (fun c => decide (a < c.1)) = true) : (Memory.put a v rest).read a = v := by
  unfold Memory.put
  split
  · next hv =>
    subst hv
    induction rest with
    | nil => rfl
    | cons c rest ih =>
      simp only [List.all_cons, Bool.and_eq_true, decide_eq_true_eq] at h
      simp [Memory.read, Nat.ne_of_gt h.1, ih h.2]
  · simp [Memory.read]

theorem Memory.read_put_other (a b : Nat) (v : Byte) (rest : Memory) (hne : b ≠ a) :
    (Memory.put a v rest).read b = rest.read b := by
  unfold Memory.put
  split
  · rfl
  · simp [Memory.read, Ne.symm hne]

theorem Memory.all_lt_trans {rest : Memory} {a k : Nat} (hak : a < k)
    (h : rest.all (fun c => decide (k < c.1)) = true) : rest.all (fun c => decide (a < c.1)) = true := by
  simp only [List.all_eq_true, decide_eq_true_eq] at h ⊢
  exact fun c hc => Nat.lt_trans hak (h c hc)

theorem Memory.wf_cons {k : Nat} {v : Byte} {rest : Memory} :
    Memory.wf ((k, v) :: rest) = true ↔
      v ≠ Memory.unlisted ∧ rest.all (fun c => decide (k < c.1)) = true ∧ rest.wf = true := by
  simp [Memory.wf, and_assoc]

/-- A read of the address written gives the byte written. -/
theorem Memory.read_write_same (m : Memory) (a : Nat) (v : Byte) (h : m.wf = true) :
    (m.write a v).read a = v := by
  induction m with
  | nil => exact Memory.read_put_same a v [] rfl
  | cons c rest ih =>
    obtain ⟨k, w⟩ := c
    obtain ⟨-, hk, hrest⟩ := Memory.wf_cons.mp h
    simp only [Memory.write]
    split
    · next hlt =>
      exact Memory.read_put_same a v _ (by simp [hlt, Memory.all_lt_trans hlt hk])
    · split
      · next heq => exact Memory.read_put_same a v rest (heq ▸ hk)
      · next hne => simp [Memory.read, Ne.symm hne, ih hrest]

/-- A write leaves every other address alone. -/
theorem Memory.read_write_other (m : Memory) (a b : Nat) (v : Byte) (hne : b ≠ a) :
    (m.write a v).read b = m.read b := by
  induction m with
  | nil => exact Memory.read_put_other a b v [] hne
  | cons c rest ih =>
    obtain ⟨k, w⟩ := c
    simp only [Memory.write]
    split
    · exact Memory.read_put_other a b v _ hne
    · split
      · next heq => simp [Memory.read_put_other a b v rest hne, Memory.read, heq ▸ Ne.symm hne]
      · simp only [Memory.read, ih]

theorem Memory.all_put {p : Host.Cell → Bool} {a : Nat} {v : Byte} {rest : Memory}
    (ha : p (a, v) = true) (h : rest.all p = true) : (Memory.put a v rest).all p = true := by
  unfold Memory.put
  split <;> simp_all

/-- A write adds at most the cell written. -/
theorem Memory.all_write {p : Host.Cell → Bool} (m : Memory) (a : Nat) (v : Byte)
    (ha : p (a, v) = true) (h : m.all p = true) : (m.write a v).all p = true := by
  induction m with
  | nil => exact Memory.all_put ha rfl
  | cons c rest ih =>
    obtain ⟨k, w⟩ := c
    have h' := h
    simp only [List.all_cons, Bool.and_eq_true] at h
    simp only [Memory.write]
    split
    · exact Memory.all_put ha h'
    · split
      · exact Memory.all_put ha h.2
      · simp [h.1, ih h.2]

theorem Memory.put_wf {a : Nat} {v : Byte} {rest : Memory}
    (hlt : rest.all (fun c => decide (a < c.1)) = true) (h : rest.wf = true) : (Memory.put a v rest).wf = true := by
  unfold Memory.put
  split
  · exact h
  · next hv => exact Memory.wf_cons.mpr ⟨hv, hlt, h⟩

/-- A write keeps the canonical form. -/
theorem Memory.write_wf (m : Memory) (a : Nat) (v : Byte) (h : m.wf = true) : (m.write a v).wf = true := by
  induction m with
  | nil => exact Memory.put_wf rfl rfl
  | cons c rest ih =>
    obtain ⟨k, w⟩ := c
    obtain ⟨hw, hk, hrest⟩ := Memory.wf_cons.mp h
    simp only [Memory.write]
    split
    · next hlt => exact Memory.put_wf (by simp [hlt, Memory.all_lt_trans hlt hk]) h
    · split
      · next heq => exact Memory.put_wf (heq ▸ hk) hrest
      · next hnlt hne =>
        exact Memory.wf_cons.mpr ⟨hw, Memory.all_write rest a v (by simp; omega) hk, ih hrest⟩

/-- A write below `size` keeps every listed address below `size`. -/
theorem Memory.write_below (m : Memory) (a : Nat) (v : Byte) (size : Nat) (ha : a < size)
    (h : m.below size = true) : (m.write a v).below size = true :=
  Memory.all_write m a v (by simpa using ha) h

theorem State.reset_inMem_wf : State.reset.inMem.wf = true := rfl

/-! ### Scratch banks -/

/-- A slot written holds the CV written. -/
theorem Scratch.find_write_same (m : Scratch) (k : Nat) (cv : CVal) : (m.write k cv).find k = some cv := by
  induction m with
  | nil => simp [Scratch.write, Scratch.find]
  | cons c rest ih =>
    obtain ⟨j, old⟩ := c
    simp only [Scratch.write]
    split
    · simp [Scratch.find]
    · split
      · simp [Scratch.find]
      · next hne => simp [Scratch.find, Ne.symm hne, ih]

/-- A write leaves every other slot alone. -/
theorem Scratch.find_write_other (m : Scratch) (k i : Nat) (cv : CVal) (hne : i ≠ k) :
    (m.write k cv).find i = m.find i := by
  induction m with
  | nil => simp [Scratch.write, Scratch.find, Ne.symm hne]
  | cons c rest ih =>
    obtain ⟨j, old⟩ := c
    simp only [Scratch.write]
    split
    · simp [Scratch.find, Ne.symm hne]
    · split
      · next heq => simp [Scratch.find, Ne.symm hne, heq ▸ Ne.symm hne]
      · simp only [Scratch.find, ih]

theorem Scratch.all_write {p : Nat × CVal → Bool} (m : Scratch) (k : Nat) (cv : CVal)
    (hk : p (k, cv) = true) (h : m.all p = true) : (m.write k cv).all p = true := by
  induction m with
  | nil => simp [Scratch.write, hk]
  | cons c rest ih =>
    obtain ⟨j, old⟩ := c
    simp only [List.all_cons, Bool.and_eq_true] at h
    simp only [Scratch.write]
    split
    · simp [hk, h.1, h.2]
    · split
      · simp [hk, h.2]
      · simp [h.1, ih h.2]

/-- A write keeps the slots strictly rising. -/
theorem Scratch.write_wf (m : Scratch) (k : Nat) (cv : CVal) (h : m.wf = true) : (m.write k cv).wf = true := by
  induction m with
  | nil => simp [Scratch.write, Scratch.wf]
  | cons c rest ih =>
    obtain ⟨j, old⟩ := c
    have h' := h
    simp only [Scratch.wf, Bool.and_eq_true] at h
    simp only [Scratch.write]
    split
    · next hlt =>
      have hall : rest.all (fun c => decide (k < c.1)) = true := by
        simp only [List.all_eq_true, decide_eq_true_eq] at h ⊢
        exact fun c hc => Nat.lt_trans hlt (h.1 c hc)
      simp [Scratch.wf, hlt, hall, h.1, h.2]
    · split
      · next heq => subst heq; simp [Scratch.wf, h.1, h.2]
      · next hnlt hne =>
        have hjk : j < k := by omega
        have := Scratch.all_write (p := fun c => decide (j < c.1)) rest k cv (by simpa using hjk) h.1
        simp [Scratch.wf, this, ih h.2]

/-- A write to a slot below `size` keeps every written slot below `size`. -/
theorem Scratch.write_below (m : Scratch) (k : Nat) (cv : CVal) (size : Nat) (hk : k < size)
    (h : m.below size = true) : (m.write k cv).below size = true :=
  Scratch.all_write m k cv (by simpa using hk) h

/-! ### The banks of a state -/

/-- What `ScrWrite` does to a bank: the bank written, and only it, takes the CV. -/
theorem State.bank_scrWrite (s : State) (b k : Nat) (cv : CVal) (c : Nat) :
    (s.scrWrite b k cv).bank c = if c % 2 = b % 2 then (s.bank c).write k cv else s.bank c := by
  rcases Nat.mod_two_eq_zero_or_one b with hb | hb <;> rcases Nat.mod_two_eq_zero_or_one c with hc | hc <;>
    simp [State.scrWrite, State.bank, hb, hc]

/-- A slot just written reads as the CV written. -/
theorem State.scrRead_scrWrite_same (s : State) (b k : Nat) (cv : CVal) :
    (s.scrWrite b k cv).scrRead b k = cv := by
  simp [State.scrRead, State.bank_scrWrite, Scratch.find_write_same]

/-- A write leaves every slot of the other bank, and every other slot of its own bank, alone. -/
theorem State.scrRead_scrWrite_other (s : State) (b k c i : Nat) (cv : CVal) (h : c % 2 ≠ b % 2 ∨ i ≠ k) :
    (s.scrWrite b k cv).scrRead c i = s.scrRead c i := by
  unfold State.scrRead
  rw [State.bank_scrWrite]
  split
  · next hc =>
    rw [Scratch.find_write_other _ _ _ _ (h.resolve_left (fun hn => hn hc)), State.scrWrite_resets]
  · rw [State.scrWrite_resets]

end Sys2Proof.Machine
end

