-- ==== Sys2Proof/Laws/Lanes.lean ====
section
/-! SUPPORT. What the operations on lanes can do: the choice of a task, the passing of a turn, the end of a level. -/

namespace Sys2Proof.Machine

/-! ### The choice of a task -/

/-- The search of `leastUntaken` finds something: a list of `n` numbers lacks one of `0` to `n`. -/
theorem exists_untaken (taken : List Nat) : ∃ k ∈ List.range (taken.length + 1), k ∉ taken := by
  by_contra h
  push Not at h
  have hle := (List.nodup_range.subperm h).length_le
  rw [List.length_range] at hle
  omega

/-- `leastUntaken` is the least number that is not in the list. -/
theorem leastUntaken_spec (taken : List Nat) :
    leastUntaken taken ∉ taken ∧ ∀ j < leastUntaken taken, j ∈ taken := by
  unfold leastUntaken
  cases hf : (List.range (taken.length + 1)).find? (fun k => !taken.contains k) with
  | none =>
    obtain ⟨k, hk, hn⟩ := exists_untaken taken
    have := List.find?_eq_none.mp hf k hk
    simp [hn] at this
  | some m =>
    refine ⟨by simpa using List.find?_some hf, fun j hj => ?_⟩
    rw [List.find?_range_eq_some] at hf
    simpa using hf.2.2 j hj

/-- A task that is chosen is in the level and not taken. -/
theorem State.choose_some {s : State} {pick k : Nat} (h : s.choose pick = some k) :
    k < s.levelTasks ∧ k ∉ s.team.taken := by
  unfold State.choose at h
  split at h
  · next hc => cases h; exact hc
  · split at h
    · next hl => cases h; exact ⟨hl, (leastUntaken_spec _).1⟩
    · cases h

/-- No task is chosen only when every task of the level has been taken. -/
theorem State.choose_none {s : State} {pick : Nat} (h : s.choose pick = none) : ∀ k < s.levelTasks, k ∈ s.team.taken := by
  unfold State.choose at h
  split at h
  · cases h
  · split at h
    · cases h
    · next hl => exact fun k hk => (leastUntaken_spec _).2 k (by omega)

/-! ### Whose turn it is -/

@[simp] theorem State.passTurn_phase (s : State) : s.passTurn.drv.phase = s.drv.phase := by
  unfold State.passTurn; split <;> rfl

@[simp] theorem State.passTurn_nreg (s : State) : s.passTurn.drv.nreg = s.drv.nreg := by
  unfold State.passTurn; split <;> rfl

@[simp] theorem State.passTurn_logn (s : State) : s.passTurn.drv.logn = s.drv.logn := by
  unfold State.passTurn; split <;> rfl

@[simp] theorem State.passTurn_lvl (s : State) : s.passTurn.drv.lvl = s.drv.lvl := by
  unfold State.passTurn; split <;> rfl

@[simp] theorem State.passTurn_taken (s : State) : s.passTurn.team.taken = s.team.taken := by
  unfold State.passTurn; split <;> rfl

@[simp] theorem State.passTurn_stored (s : State) : s.passTurn.team.stored = s.team.stored := by
  unfold State.passTurn; split <;> rfl

/-- Passing the turn takes the lanes round: none is lost and none is changed. -/
theorem State.passTurn_seats (s : State) : s.passTurn.seats = s.team.parked ++ [s.seat] := by
  unfold State.passTurn State.seats
  split
  · next h => simp [h]
  · next h => simp [h, State.seat, Driver.atSeat]

@[simp] theorem State.passTurn_lanes (s : State) : s.passTurn.lanes = s.lanes := by
  unfold State.passTurn State.lanes
  split <;> simp [*]

@[simp] theorem State.turnTo_lanes (n : Nat) (s : State) : (s.turnTo n).lanes = s.lanes := by
  induction n generalizing s with
  | zero => rfl
  | succ n ih => rw [State.turnTo, ih, State.passTurn_lanes]

/-- With one lane the turn stays. -/
theorem State.turnTo_alone {s : State} (h : s.team.parked = []) (n : Nat) : s.turnTo n = s := by
  have hp : s.passTurn = s := by unfold State.passTurn; rw [h]
  induction n with
  | zero => rfl
  | succ n ih => rw [State.turnTo, hp, ih]

/-- What every pass of the turn keeps, turning any number of lanes on keeps. -/
theorem State.turnTo_induct {P : State → Prop} (hpass : ∀ s, P s → P s.passTurn) (n : Nat) {s : State} (h : P s) :
    P (s.turnTo n) := by
  induction n generalizing s with
  | zero => exact h
  | succ n ih => exact ih (hpass s h)

/-! ### The end of a task -/

/-- Where the driver goes after a STORE: alone as the reference driver; else the lane waits, or the level ends. -/
theorem State.afterStore_cases (s : State) (alone next : Driver) :
    (s.team.parked = [] ∧ s.afterStore alone next = { s with drv := alone }) ∨
    (s.team.parked ≠ [] ∧ s.team.stored + 1 < s.levelTasks ∧ s.afterStore alone next =
      { s with drv := { s.drv with sub := .load }, team := { s.team with waiting := true, stored := s.team.stored + 1 } }) ∨
    (s.team.parked ≠ [] ∧ s.levelTasks ≤ s.team.stored + 1 ∧
      s.afterStore alone next = { s with drv := next, team := s.team.fresh }) := by
  unfold State.afterStore
  split_ifs with h1 h2
  · exact .inl ⟨List.isEmpty_iff.mp h1, rfl⟩
  · exact .inr (.inl ⟨fun h => h1 (List.isEmpty_iff.mpr h), h2, rfl⟩)
  · exact .inr (.inr ⟨fun h => h1 (List.isEmpty_iff.mpr h), by omega, rfl⟩)

@[simp] theorem Team.fresh_taken (t : Team) : t.fresh.taken = [] := rfl

@[simp] theorem Team.fresh_stored (t : Team) : t.fresh.stored = 0 := rfl

@[simp] theorem Team.fresh_parked_length (t : Team) : t.fresh.parked.length = t.parked.length := by simp [Team.fresh]

end Sys2Proof.Machine
end

