-- ==== Sys2Proof/Laws/Invariant.lean ====
section
/-! SUPPORT. What a proof about the invariant of Safety.lean cites: which fields it depends on, and what a STORE step
does to the scratch slots it speaks of. -/

namespace Sys2Proof.Machine

/-- The invariant depends on no LEN register, no byte of DOUT, no reset count and nothing of the port. -/
theorem State.Inv.congr {s t : State} (h : s.Inv) (hlane : t.lane = s.lane) (hdrv : t.drv = s.drv) (hteam : t.team = s.team)
    (hstatus : t.status = s.status) (hmax : t.log2NMax = s.log2NMax) (hrom : t.rom = s.rom) (hin : t.inMem = s.inMem)
    (hscr0 : t.scr0 = s.scr0) (hscr1 : t.scr1 = s.scr1) : t.Inv := by
  cases s
  cases t
  dsimp only at *
  subst_vars
  obtain ⟨⟨_, _, _, _, _, _, _, _⟩, ⟨_, _, _⟩, ⟨_, _, _⟩, ⟨ha, hs⟩, ho⟩ := h
  refine ⟨⟨‹_›, ‹_›, ‹_›, ‹_›, ‹_›, ‹_›, ‹_›, ‹_›⟩, ⟨‹_›, ‹_›, ‹_›⟩, ⟨‹_›, ‹_›, ‹_›⟩,
    ⟨fun hp hq => ?_, fun hp hq => ?_⟩, ho⟩
  · obtain ⟨_, _, _⟩ := ha hp hq
    exact ⟨‹_›, ‹_›, ‹_›⟩
  · obtain ⟨_, _, _, _, _, _, _⟩ := hs hp hq
    exact ⟨‹_›, ‹_›, ‹_›, ‹_›, ‹_›, ‹_›, ‹_›⟩

/-- Level LVL of a tree over `2^n` chunks has `2^(n - LVL)` nodes (43_chunk_merkle.md R150). -/
theorem State.levelSize_eq (s : State) (n : Nat) (hn : s.drv.nreg.toNat = 2 ^ n) (hl : s.drv.lvl.toNat ≤ n) :
    s.levelSize = 2 ^ (n - s.drv.lvl.toNat) := by
  rw [State.levelSize, hn, Nat.shiftRight_eq_div_pow, Nat.pow_div hl (by norm_num)]

/-- A STORE step keeps what has been written. -/
theorem State.written_store {s : State} {c n : Nat} (h : s.Written c n) (b k : Nat) (cv : CVal) :
    (s.scrWrite b k cv).Written c n := by
  intro i hi
  rw [State.bank_scrWrite]
  split
  · by_cases hik : i = k
    · rw [hik, Scratch.find_write_same]; rfl
    · rw [Scratch.find_write_other _ _ _ _ hik]; exact h i hi
  · exact h i hi

/-- A STORE step of slot `k` after slots `0` to `k-1` leaves slots `0` to `k` written. -/
theorem State.written_store_succ {s : State} {b k : Nat} (h : s.Written b k) (cv : CVal) :
    (s.scrWrite b k cv).Written b (k + 1) := by
  intro i hi
  rw [State.bank_scrWrite, if_pos rfl]
  by_cases hik : i = k
  · rw [hik, Scratch.find_write_same]; rfl
  · rw [Scratch.find_write_other _ _ _ _ hik]; exact h i (by omega)

/-- A STORE step of a slot that exists keeps the storage part of the invariant. -/
theorem State.StorageInv.store {s : State} (h : s.StorageInv) (b k : Nat) (cv : CVal) (hk : k < s.nMax) :
    (s.scrWrite b k cv).StorageInv := by
  unfold State.scrWrite
  split
  · exact ⟨h.capacity, h.romFixed, h.inWf, h.inBelow, Scratch.write_wf _ _ _ h.scr0Wf,
      Scratch.write_below _ _ _ _ hk h.scr0Below, h.scr1Wf, h.scr1Below⟩
  · exact ⟨h.capacity, h.romFixed, h.inWf, h.inBelow, h.scr0Wf, h.scr0Below, Scratch.write_wf _ _ _ h.scr1Wf,
      Scratch.write_below _ _ _ _ hk h.scr1Below⟩

/-- In a state of the invariant a driver that is not busy is idle (10_state.md R32). -/
theorem State.Inv.idle_of_not_busy {s : State} (h : s.Inv) (hb : s.busy = false) : s.drv.phase = .idle := by
  by_contra hp
  rw [h.status.busyIff.mpr hp] at hb
  cases hb

/-- The storage part of the invariant depends on the capacity, the ROM, IN and the scratch alone. -/
theorem State.StorageInv.congr {s t : State} (h : s.StorageInv) (hmax : t.log2NMax = s.log2NMax) (hrom : t.rom = s.rom)
    (hin : t.inMem = s.inMem) (hscr0 : t.scr0 = s.scr0) (hscr1 : t.scr1 = s.scr1) : t.StorageInv := by
  cases s
  cases t
  dsimp only at *
  subst_vars
  obtain ⟨_, _, _, _, _, _, _, _⟩ := h
  exact ⟨‹_›, ‹_›, ‹_›, ‹_›, ‹_›, ‹_›, ‹_›, ‹_›⟩

/-! ### The tasks of a level -/

/-- While a run is in progress every task of the level has a slot (43_chunk_merkle.md R154) and fits its register. -/
theorem State.levelTasks_le {s : State} (h : s.DriverInv) (hp : s.drv.phase ≠ .idle) :
    s.levelTasks ≤ s.nMax ∧ s.levelTasks < 2 ^ 64 := by
  obtain ⟨-, hle, hn⟩ := h.latched hp
  have hnreg : s.drv.nreg.toNat ≤ s.nMax := hn ▸ Nat.pow_le_pow_right (by norm_num) hle
  have hlt := s.drv.nreg.isLt
  have hsize : s.levelSize ≤ s.drv.nreg.toNat := Nat.shiftRight_le _ _
  have hpos : 1 ≤ s.nMax := Nat.one_le_two_pow
  unfold State.levelTasks
  split <;> omega

/-- Tasks taken once each, as many as the level has, are all of them. -/
theorem taken_all {taken : List Nat} {n : Nat} (h : taken.Nodup) (hb : ∀ k ∈ taken, k < n) (hn : n ≤ taken.length) :
    ∀ k < n, k ∈ taken := by
  have hp := (h.subperm (l₂ := List.range n) fun k hk => List.mem_range.mpr (hb k hk)).perm_of_length_le (by simpa using hn)
  exact fun k hk => hp.mem_iff.mpr (List.mem_range.mpr hk)

/-- The task of a lane whose turn it is, and that has one, is among those worked on. -/
theorem State.task_mem_working {s : State} (hw : s.team.waiting = false) : s.seat.task s.drv.phase ∈ s.working := by
  unfold State.working State.seats
  exact List.mem_map_of_mem (List.mem_filter.mpr ⟨List.mem_cons_self, by simp [State.seat, hw]⟩)

/-- The task of a lane whose turn it is, and that has one, is in the level. -/
theorem State.Inv.task_lt {s : State} (h : s.Inv) (hp : s.drv.phase ≠ .idle) (hw : s.team.waiting = false) :
    s.seat.task s.drv.phase < s.levelTasks := by
  by_cases hq : s.team.parked = []
  · exact (h.team.alone hp hq).inLevel
  · have hs := h.team.shared hp hq
    exact hs.inLevel _ (hs.workTaken _ (State.task_mem_working hw))

end Sys2Proof.Machine
end

