-- ==== Sys2Proof/Laws/Ops.lean ====
section
/-! SUPPORT. What each shared operation and each agent's step can do: one inversion lemma each. -/

namespace Sys2Proof.Machine

/-! ### Decoding a uop -/

/-- A word that is a uop is one of the four. -/
theorem decodeUop_cases {u : BitVec 32} {i : Instr} (h : decodeUop u = .ok i) :
    i = .init ∨ i = .g (u.extractLsb' 4 4) (u.extractLsb' 8 4) (u.extractLsb' 12 4) (u.extractLsb' 16 4)
      (u.extractLsb' 20 4) (u.extractLsb' 24 4) ∨ i = .perm ∨ i = .final := by
  unfold decodeUop decodeU0 decodeUG at h
  split at h
  case h_5 => cases h
  all_goals
    split at h
    · cases h; simp
    · cases h

/-- Every word of the ROM is a uop (R132). -/
theorem decodeUop_uopRom (k : Fin 64) : ∃ i, decodeUop uopRom[k] = .ok i := by
  have h : ∀ k : Fin 64, (decodeUop uopRom[k]).toBool = true := by decide +kernel
  specialize h k
  cases hd : decodeUop uopRom[k] with
  | ok i => exact ⟨i, rfl⟩
  | error e => rw [hd] at h; cases h

/-! ### Instructions -/

/-- Every instruction answers a next state. -/
theorem exec_next (i : Instr) (s : State) : ∃ t, exec i s = .next t := by
  cases i with
  | wrIn data addr =>
    change ∃ t, execWrIn data addr s = .next t
    unfold execWrIn
    split
    · exact ⟨_, rfl⟩
    · split <;> exact ⟨_, rfl⟩
  | rdIn data addr =>
    change ∃ t, execRdIn data addr s = .next t
    unfold execRdIn
    split <;> exact ⟨_, rfl⟩
  | rdDout data addr =>
    change ∃ t, execRdDout data addr s = .next t
    unfold execRdDout
    split <;> exact ⟨_, rfl⟩
  | wrDout data addr =>
    change ∃ t, execWrDout data addr s = .next t
    unfold execWrDout
    split <;> exact ⟨_, rfl⟩
  | _ => exact ⟨_, rfl⟩

/-- A uop writes lane registers only, and never `upc`, CNT, BLEN or FLG. -/
theorem exec_uop {u : BitVec 32} {i : Instr} (h : decodeUop u = .ok i) (s : State) :
    ∃ (st m : Block) (cv : CVal),
      exec i s = .next { s with lane := { s.lane with s := st, m := m, cv := cv } } := by
  rcases decodeUop_cases h with rfl | rfl | rfl | rfl <;> exact ⟨_, _, _, rfl⟩

/-- The four outcomes of the HASH command (R171). -/
theorem hashCommand_cases (s : State) :
    (s.busy = true ∧ s.hashCommand = s) ∨
    (s.busy = false ∧ validLength s.len = false ∧ s.hashCommand = s.raiseError errInvalidInput) ∨
    (s.busy = false ∧ validLength s.len = true ∧ s.nMax < chunkCount s.len ∧
      s.hashCommand = s.raiseError errOutOfMemory) ∨
    (s.busy = false ∧ validLength s.len = true ∧ chunkCount s.len ≤ s.nMax ∧
      s.hashCommand = s.startRun (chunkCount s.len)) := by
  unfold State.hashCommand
  cases hb : s.busy <;> cases hv : validLength s.len <;> simp
  omega

/-! ### The core -/

/-- A RUN step that answers a next state ran a uop and moved on (R157). -/
theorem runStep_next {s t : State} (h : runStep s = .next t) :
    ∃ i u, decodeUop s.fetchUop = .ok i ∧ exec i s = .next u ∧ t = u.afterUop := by
  unfold runStep at h
  split at h
  · next i hd =>
    obtain ⟨u, hu⟩ := exec_next i s
    rw [hu] at h
    exact ⟨i, u, hd, hu, by cases h; rfl⟩
  · cases h

/-- What a step of the lane whose turn it is was, if it answers a next state (R155). -/
theorem fsmStep_cases {s t : State} (h : fsmStep s = .next t) :
    (s.drv.phase = .idle ∧ t = s) ∨
    (s.drv.phase ≠ .idle ∧ s.drv.sub = .run ∧ runStep s = .next t) ∨
    (s.drv.phase = .leaf ∧ s.drv.sub = .load ∧ leafLoad s = .next t) ∨
    (s.drv.phase = .leaf ∧ s.drv.sub = .store ∧ leafStore s = .next t) ∨
    (s.drv.phase = .parent ∧ s.drv.sub = .load ∧ parentLoad s = .next t) ∨
    (s.drv.phase = .parent ∧ s.drv.sub = .store ∧ parentStore s = .next t) ∨
    (s.drv.phase = .root ∧ s.drv.sub = .load ∧ rootLoad s = .next t) ∨
    (s.drv.phase = .root ∧ s.drv.sub = .store ∧ exportDigest s = .next t) := by
  unfold fsmStep at h
  cases hp : s.drv.phase <;> cases hs : s.drv.sub <;> simp_all

/-- A lane without a task takes one or passes the turn (R163). -/
theorem takeTask_cases (pick : Nat) (s : State) :
    (∃ k, s.choose pick = some k ∧ s.takeTask pick = s.take k) ∨
    (s.choose pick = none ∧ s.takeTask pick = s.passTurn) := by
  unfold State.takeTask
  cases h : s.choose pick <;> simp

/-- A turn of a lane: the taking of a task, or the lane's step. -/
theorem laneStep_cases (pick : Nat) (s : State) :
    (s.team.waiting = true ∧ s.drv.phase ≠ .idle ∧ laneStep pick s = .next (s.takeTask pick)) ∨
    ((s.team.waiting = false ∨ s.drv.phase = .idle) ∧ laneStep pick s = fsmStep s) := by
  unfold laneStep
  split
  · next h => exact .inl ⟨h.1, h.2, rfl⟩
  · next h => exact .inr ⟨by cases hw : s.team.waiting <;> simp_all, rfl⟩

/-- A lane with a task does its step, whatever the pick. -/
theorem laneStep_working {s : State} (h : s.team.waiting = false) (pick : Nat) : laneStep pick s = fsmStep s := by
  unfold laneStep
  rw [if_neg (by simp [h])]

/-- A turn of a lane while idle changes nothing (R155). -/
theorem laneTurn_idle {s : State} (h : s.drv.phase = .idle) (lane pick : Nat) : laneTurn lane pick s = .next s := by
  unfold laneTurn
  rw [if_pos h]

/-- A LEAF LOAD that answers a next state loaded a block that lies in IN (R156). -/
theorem leafLoad_next {s t : State} (h : leafLoad s = .next t) : s.leafBase + 64 ≤ s.inBytes ∧ t = s.leafLoaded := by
  unfold leafLoad at h
  split at h
  · next hle => exact ⟨hle, by cases h; rfl⟩
  · cases h

/-- A PARENT LOAD that answers a next state loaded two slots that exist (R159). -/
theorem parentLoad_next {s t : State} (h : parentLoad s = .next t) :
    2 * s.drv.node.toNat + 1 < s.nMax ∧
      t = s.childrenLoaded s.parentSource (2 * s.drv.node.toNat) parentFlags := by
  unfold parentLoad at h
  split at h
  · next hlt => exact ⟨hlt, by cases h; rfl⟩
  · cases h

/-- A ROOT LOAD that answers a next state loaded slots 0 and 1 (R161). -/
theorem rootLoad_next {s t : State} (h : rootLoad s = .next t) :
    1 < s.nMax ∧ t = s.childrenLoaded s.rootSource 0 rootFlags := by
  unfold rootLoad at h
  split at h
  · next hlt => exact ⟨hlt, by cases h; rfl⟩
  · cases h

/-- A LEAF STORE that answers a next state wrote bank 0 slot CI (R158). -/
theorem leafStore_next {s t : State} (h : leafStore s = .next t) :
    s.drv.ci.toNat < s.nMax ∧
      t = (s.scrWrite 0 s.drv.ci.toNat s.lane.cv).afterLeaf := by
  unfold leafStore at h
  split at h
  · next hlt => exact ⟨hlt, by cases h; rfl⟩
  · cases h

/-- A PARENT STORE that answers a next state wrote bank `LVL mod 2` slot NODE (R160). -/
theorem parentStore_next {s t : State} (h : parentStore s = .next t) :
    s.drv.node.toNat < s.nMax ∧
      t = (s.scrWrite (s.drv.lvl.toNat % 2) s.drv.node.toNat s.lane.cv).afterParent := by
  unfold parentStore at h
  split at h
  · next hlt => exact ⟨hlt, by cases h; rfl⟩
  · cases h

/-! ### The host -/

/-- A host transaction is refused for a reason, or runs the row it decodes to (R170). -/
theorem hostTransaction_cases (htw : BitVec 40) (addr : Nat) (s : State) :
    (∃ why, decodeHost htw addr = .error why ∧ hostTransaction htw addr s = .next (s.refuse why)) ∨
    (∃ i, decodeHost htw addr = .ok i ∧ hostTransaction htw addr s = exec i s) := by
  unfold hostTransaction
  cases h : decodeHost htw addr <;> simp

/-- What the host puts on its port is refused for a reason, or runs a row (R170, R184). -/
theorem hostStep_cases (r : HostRequest) (s : State) :
    (∃ why, hostStep r s = .next (s.refuse why)) ∨
    (∃ htw addr i, decodeHost htw addr = .ok i ∧ hostStep r s = exec i s) := by
  cases r with
  | transaction htw addr =>
    rcases hostTransaction_cases htw addr s with ⟨why, -, h⟩ | ⟨i, hd, h⟩
    · exact .inl ⟨why, h⟩
    · exact .inr ⟨htw, addr, i, hd, h⟩
  | csrAccess write offset width data =>
    cases hr : csrAccessReasons offset width with
    | nil =>
      rcases hostTransaction_cases (csrAccessWord write offset data) 0 s with ⟨why, -, h⟩ | ⟨i, hd, h⟩
      · exact .inl ⟨why, by simp only [hostStep, csrAccess, hr, h]⟩
      · exact .inr ⟨_, _, i, hd, by simp only [hostStep, csrAccess, hr, h]⟩
    | cons a rest => exact .inl ⟨a :: rest, by simp only [hostStep, csrAccess, hr]⟩

/-! ### The step -/

/-- What the next event is: a turn of the core (scheduled, or because nothing is), a turn of another lane, a host
request, or a reset. -/
theorem step_cases (s : State) :
    (s.port.inbox = [] ∧ step s = coreStep s) ∨
    (∃ rest, s.port.inbox = .coreTurn :: rest ∧ step s = coreStep (s.withInbox rest)) ∨
    (∃ lane pick rest, s.port.inbox = .laneTurn lane pick :: rest ∧ step s = laneTurn lane pick (s.withInbox rest)) ∨
    (∃ r rest, s.port.inbox = .host r :: rest ∧ step s = hostStep r (s.withInbox rest)) ∨
    (∃ rest, s.port.inbox = .reset :: rest ∧ step s = .next (s.withInbox rest).resetEvent) := by
  unfold step nextEvent
  cases hi : s.port.inbox with
  | nil => simp
  | cons e rest => cases e <;> simp [eventStep]

end Sys2Proof.Machine
end

