-- ==== Sys2Proof/Laws/PerInstr.lean ====
section
/-! SUPPORT. A statement for every constructor of Instr: its code lies in its row of the opcode table. -/

namespace Sys2Proof.Laws.TableRow

/-- Whether a code has a row's match under its mask: 32 bits for a uop, 40 for a host transaction word. -/
def matchesRow (code : Code) (mat mask : Nat) : Prop :=
  match code with
  | .uop u => u &&& BitVec.ofNat 32 mask = BitVec.ofNat 32 mat
  | .host htw _ => htw &&& BitVec.ofNat 40 mask = BitVec.ofNat 40 mat

/-- The match and the mask of an instruction's row (30_encoding.md R77). -/
def row : Instr → Nat × Nat
  | .init => (0x00000001, 0xFFFFFFFF)
  | .g _ _ _ _ _ _ => (0x00000002, 0xF000000F)
  | .perm => (0x00000003, 0xFFFFFFFF)
  | .final => (0x00000004, 0xFFFFFFFF)
  | .hash _ => (0x8000000001, 0xFF00000001)
  | .ctrlNop _ => (0x8000000000, 0xFF00000001)
  | .rdCtrl _ => (0x0000000000, 0xFF00000000)
  | .rdStatus _ => (0x0100000000, 0xFF00000000)
  | .wrStatus _ => (0x8100000000, 0xFF00000000)
  | .wrLenLo _ => (0x8200000000, 0xFF00000000)
  | .wrLenHi _ => (0x8300000000, 0xFF00000000)
  | .rdLenLo _ => (0x0200000000, 0xFF00000000)
  | .rdLenHi _ => (0x0300000000, 0xFF00000000)
  | .rdCaps _ => (0x0400000000, 0xFF00000000)
  | .wrCaps _ => (0x8400000000, 0xFF00000000)
  | .rdCsrRsvd5 _ => (0x0500000000, 0xFF00000000)
  | .rdCsrRsvd6to7 _ _ => (0x0600000000, 0xFE00000000)
  | .rdCsrRsvd8to15 _ _ => (0x0800000000, 0xF800000000)
  | .wrCsrRsvd5 _ => (0x8500000000, 0xFF00000000)
  | .wrCsrRsvd6to7 _ _ => (0x8600000000, 0xFE00000000)
  | .wrCsrRsvd8to15 _ _ => (0x8800000000, 0xF800000000)
  | .wrIn _ _ => (0xA000000000, 0xFF00000000)
  | .rdIn _ _ => (0x2000000000, 0xFF00000000)
  | .rdDout _ _ => (0x4000000000, 0xFF00000000)
  | .wrDout _ _ => (0xC000000000, 0xFF00000000)

/-- The code of a well-formed instruction has its row's match under its row's mask. -/
def Statement (i : Instr) : Prop := i.wellFormed = true → matchesRow (encode i) (row i).1 (row i).2

/-! ### Bits of the two words -/

/-- Bit `k` of a host transaction word: DATA32 below 32, then INDEX, a 0, SPACE and DIR. -/
theorem hostWord_bits (dir : BitVec 1) (space : BitVec 2) (index : BitVec 4) (data : BitVec 32) (k : Nat) :
    (hostWord dir space index data).getLsbD k =
      if k < 32 then data.getLsbD k else if k < 36 then index.getLsbD (k - 32)
      else if k < 37 then false else if k < 39 then space.getLsbD (k - 37) else dir.getLsbD (k - 39) := by
  simp only [hostWord, BitVec.getLsbD_append]
  repeat' split
  all_goals first
    | rfl
    | (exfalso; omega)
    | simp [Nat.sub_sub]

/-- The key masks of the table are the word with DIR and SPACE set, the reserved bit clear and INDEX all ones; the
reserved bit of a code is 0, so masking it or not is the same. -/
theorem key_mask (dir : BitVec 1) (space : BitVec 2) (index : BitVec 4) (data : BitVec 32) (m : BitVec 4) (mask : BitVec 40)
    (h : mask = hostWord 1 3 m 0 ||| 0x1000000000) :
    hostWord dir space index data &&& mask = hostWord dir space (index &&& m) 0 := by
  subst h
  apply BitVec.eq_of_getLsbD_eq
  intro k hk
  rw [BitVec.getLsbD_and, BitVec.getLsbD_or, hostWord_bits, hostWord_bits, hostWord_bits]
  interval_cases k <;> simp

/-- The mask of the CTRL write rows keeps the key and DATA[0]. -/
theorem ctrl_mask (data : BitVec 32) (b : Bool) (h : data.getLsbD 0 = b) :
    hostWord 1 0 0 data &&& 0xFF00000001#40 = hostWord 1 0 0 (if b then 1 else 0) := by
  apply BitVec.eq_of_getLsbD_eq
  intro k hk
  rw [BitVec.getLsbD_and, hostWord_bits, hostWord_bits]
  cases b <;> interval_cases k <;> simp_all

/-! ### One lemma per constructor -/

theorem init : Statement .init := fun _ => rfl

theorem g (a b c d x y : BitVec 4) : Statement (.g a b c d x y) := fun _ => by
  change (0#4 ++ y ++ x ++ d ++ c ++ b ++ a ++ 2#4) &&& 0xF000000F#32 = 2#32
  apply BitVec.eq_of_getLsbD_eq
  intro k hk
  rw [BitVec.getLsbD_and]
  simp only [BitVec.getLsbD_append]
  interval_cases k <;> simp

theorem perm : Statement .perm := fun _ => rfl

theorem final : Statement .final := fun _ => rfl

theorem hash (data : BitVec 32) : Statement (.hash data) := fun h => by
  change hostWord 1 0 0 data &&& 0xFF00000001#40 = 0x8000000001#40
  rw [ctrl_mask data true h]
  decide

theorem ctrlNop (data : BitVec 32) : Statement (.ctrlNop data) := fun h => by
  change hostWord 1 0 0 data &&& 0xFF00000001#40 = 0x8000000000#40
  rw [ctrl_mask data false (by simpa [Instr.wellFormed] using h)]
  decide

theorem rdCtrl (data : BitVec 32) : Statement (.rdCtrl data) := fun _ => by
  change hostWord 0 0 0 data &&& 0xFF00000000#40 = 0x0000000000#40
  rw [key_mask 0 0 0 data 15 _ (by decide)]
  decide

theorem rdStatus (data : BitVec 32) : Statement (.rdStatus data) := fun _ => by
  change hostWord 0 0 1 data &&& 0xFF00000000#40 = 0x0100000000#40
  rw [key_mask 0 0 1 data 15 _ (by decide)]
  decide

theorem wrStatus (data : BitVec 32) : Statement (.wrStatus data) := fun _ => by
  change hostWord 1 0 1 data &&& 0xFF00000000#40 = 0x8100000000#40
  rw [key_mask 1 0 1 data 15 _ (by decide)]
  decide

theorem wrLenLo (data : BitVec 32) : Statement (.wrLenLo data) := fun _ => by
  change hostWord 1 0 2 data &&& 0xFF00000000#40 = 0x8200000000#40
  rw [key_mask 1 0 2 data 15 _ (by decide)]
  decide

theorem wrLenHi (data : BitVec 32) : Statement (.wrLenHi data) := fun _ => by
  change hostWord 1 0 3 data &&& 0xFF00000000#40 = 0x8300000000#40
  rw [key_mask 1 0 3 data 15 _ (by decide)]
  decide

theorem rdLenLo (data : BitVec 32) : Statement (.rdLenLo data) := fun _ => by
  change hostWord 0 0 2 data &&& 0xFF00000000#40 = 0x0200000000#40
  rw [key_mask 0 0 2 data 15 _ (by decide)]
  decide

theorem rdLenHi (data : BitVec 32) : Statement (.rdLenHi data) := fun _ => by
  change hostWord 0 0 3 data &&& 0xFF00000000#40 = 0x0300000000#40
  rw [key_mask 0 0 3 data 15 _ (by decide)]
  decide

theorem rdCaps (data : BitVec 32) : Statement (.rdCaps data) := fun _ => by
  change hostWord 0 0 4 data &&& 0xFF00000000#40 = 0x0400000000#40
  rw [key_mask 0 0 4 data 15 _ (by decide)]
  decide

theorem wrCaps (data : BitVec 32) : Statement (.wrCaps data) := fun _ => by
  change hostWord 1 0 4 data &&& 0xFF00000000#40 = 0x8400000000#40
  rw [key_mask 1 0 4 data 15 _ (by decide)]
  decide

theorem rdCsrRsvd5 (data : BitVec 32) : Statement (.rdCsrRsvd5 data) := fun _ => by
  change hostWord 0 0 5 data &&& 0xFF00000000#40 = 0x0500000000#40
  rw [key_mask 0 0 5 data 15 _ (by decide)]
  decide

theorem wrCsrRsvd5 (data : BitVec 32) : Statement (.wrCsrRsvd5 data) := fun _ => by
  change hostWord 1 0 5 data &&& 0xFF00000000#40 = 0x8500000000#40
  rw [key_mask 1 0 5 data 15 _ (by decide)]
  decide

theorem rdCsrRsvd6to7 (index : BitVec 4) (data : BitVec 32) : Statement (.rdCsrRsvd6to7 index data) := fun h => by
  have hi : index = 6 ∨ index = 7 := by simpa [Instr.wellFormed] using h
  change hostWord 0 0 index data &&& 0xFE00000000#40 = 0x0600000000#40
  rw [key_mask 0 0 index data 14 _ (by decide)]
  rcases hi with rfl | rfl <;> decide

theorem wrCsrRsvd6to7 (index : BitVec 4) (data : BitVec 32) : Statement (.wrCsrRsvd6to7 index data) := fun h => by
  have hi : index = 6 ∨ index = 7 := by simpa [Instr.wellFormed] using h
  change hostWord 1 0 index data &&& 0xFE00000000#40 = 0x8600000000#40
  rw [key_mask 1 0 index data 14 _ (by decide)]
  rcases hi with rfl | rfl <;> decide

/-- An index from 8 on has its top bit set. -/
theorem index_top (index : BitVec 4) (h : 8 ≤ index.toNat) : index &&& 8 = 8 := by
  revert index
  decide

theorem rdCsrRsvd8to15 (index : BitVec 4) (data : BitVec 32) : Statement (.rdCsrRsvd8to15 index data) := fun h => by
  change hostWord 0 0 index data &&& 0xF800000000#40 = 0x0800000000#40
  rw [key_mask 0 0 index data 8 _ (by decide), index_top index (of_decide_eq_true h)]
  decide

theorem wrCsrRsvd8to15 (index : BitVec 4) (data : BitVec 32) : Statement (.wrCsrRsvd8to15 index data) := fun h => by
  change hostWord 1 0 index data &&& 0xF800000000#40 = 0x8800000000#40
  rw [key_mask 1 0 index data 8 _ (by decide), index_top index (of_decide_eq_true h)]
  decide

theorem wrIn (data : BitVec 32) (addr : Nat) : Statement (.wrIn data addr) := fun _ => by
  change hostWord 1 1 0 data &&& 0xFF00000000#40 = 0xA000000000#40
  rw [key_mask 1 1 0 data 15 _ (by decide)]
  decide

theorem rdIn (data : BitVec 32) (addr : Nat) : Statement (.rdIn data addr) := fun _ => by
  change hostWord 0 1 0 data &&& 0xFF00000000#40 = 0x2000000000#40
  rw [key_mask 0 1 0 data 15 _ (by decide)]
  decide

theorem rdDout (data : BitVec 32) (addr : Nat) : Statement (.rdDout data addr) := fun _ => by
  change hostWord 0 2 0 data &&& 0xFF00000000#40 = 0x4000000000#40
  rw [key_mask 0 2 0 data 15 _ (by decide)]
  decide

theorem wrDout (data : BitVec 32) (addr : Nat) : Statement (.wrDout data addr) := fun _ => by
  change hostWord 1 2 0 data &&& 0xFF00000000#40 = 0xC000000000#40
  rw [key_mask 1 2 0 data 15 _ (by decide)]
  decide

end Sys2Proof.Laws.TableRow
end

