-- ==== Sys2Proof/Tests/Slice0.lean ====
section
/-! SUPPORT. The model's own tests: well-formedness, decoding, one step of each instruction and driver step, and a
witness for the hypotheses of each statement. Expected values come from 95_test_vectors.md or from the encodings
and examples of the rules cited. -/

set_option Elab.async false

namespace Sys2Proof.Tests

open Sys2Proof.Machine

/-! ### Well-formedness: a term each check refuses, and one it admits -/

theorem test_wf_hash_needs_start : (Instr.hash 0xFFFFFFFE).wellFormed = false := by decide
theorem test_wf_ctrlNop_needs_no_start : (Instr.ctrlNop 1).wellFormed = false := by decide
theorem test_wf_rd_6to7 : (Instr.rdCsrRsvd6to7 5 0).wellFormed = false ∧ (Instr.rdCsrRsvd6to7 8 0).wellFormed = false := by
  decide
theorem test_wf_rd_8to15 : (Instr.rdCsrRsvd8to15 7 0).wellFormed = false := by decide
theorem test_wf_wr_6to7 : (Instr.wrCsrRsvd6to7 5 0).wellFormed = false ∧ (Instr.wrCsrRsvd6to7 8 0).wellFormed = false := by
  decide
theorem test_wf_wr_8to15 : (Instr.wrCsrRsvd8to15 7 0).wellFormed = false := by decide
theorem test_wf_admits : (Instr.hash 1).wellFormed = true ∧ (Instr.ctrlNop 0).wellFormed = true ∧
    (Instr.rdCsrRsvd6to7 6 0).wellFormed = true ∧ (Instr.rdCsrRsvd8to15 15 0).wellFormed = true ∧
    (Instr.wrCsrRsvd6to7 7 0).wellFormed = true ∧ (Instr.wrCsrRsvd8to15 8 0).wellFormed = true := by decide

/-! ### Decoding: words written out from R70, R71 and R73 (V-D1 to V-D16, and the programs P3 to P6) -/

theorem test_decode_init : decodeUop 0b00000000000000000000000000000001 = .ok .init := by decide
-- 0000 YYYY XXXX DDDD CCCC BBBB AAAA 0010 with A = 3, B = 4, C = 9, D = 14, X = 14, Y = 15 (V-D2)
theorem test_decode_g : decodeUop 0b00001111111011101001010000110010 = .ok (.g 3 4 9 14 14 15) := by decide
-- R78's example
theorem test_decode_g_example : decodeUop 0x010C8402 = .ok (.g 0 4 8 12 0 1) := by decide
theorem test_decode_perm : decodeUop 0b00000000000000000000000000000011 = .ok .perm := by decide
theorem test_decode_final : decodeUop 0b00000000000000000000000000000100 = .ok .final := by decide
theorem test_decode_reserved_opcodes : decodeUop 0x00000000 = .error .opcodeReserved ∧
    decodeUop 0x00000005 = .error .opcodeReserved ∧ decodeUop 0x0000000F = .error .opcodeReserved := by decide
theorem test_decode_reserved_bits : decodeUop 0x00000013 = .error .reservedBitsSet ∧
    decodeUop 0x10000002 = .error .reservedBitsSet := by decide
-- key = DIR(1) SPACE(2) 0 INDEX(4), then DATA32
theorem test_decode_hash : decodeHost 0b1000000000000000000000000000000000000001 0 = .ok (.hash 1) ∧
    decodeHost 0x80FFFFFFFF 0 = .ok (.hash 0xFFFFFFFF) := by decide
theorem test_decode_ctrlNop : decodeHost 0x80FFFFFFFE 0 = .ok (.ctrlNop 0xFFFFFFFE) := by decide
theorem test_decode_rdCtrl : decodeHost 0x0000000000 0 = .ok (.rdCtrl 0) := by decide
theorem test_decode_rdStatus : decodeHost 0b0000000100000000000000000000000000000000 0 = .ok (.rdStatus 0) := by decide
theorem test_decode_wrStatus : decodeHost 0x8100000000 0 = .ok (.wrStatus 0) := by decide
theorem test_decode_wrLenLo : decodeHost 0x8200100000 0 = .ok (.wrLenLo 0x00100000) := by decide
theorem test_decode_wrLenHi : decodeHost 0x8300000000 0 = .ok (.wrLenHi 0) := by decide
theorem test_decode_rdLenLo : decodeHost 0x0200000000 0 = .ok (.rdLenLo 0) := by decide
theorem test_decode_rdLenHi : decodeHost 0x0300000000 0 = .ok (.rdLenHi 0) := by decide
theorem test_decode_rdCaps : decodeHost 0x0400000000 0 = .ok (.rdCaps 0) := by decide
theorem test_decode_wrCaps : decodeHost 0x840000003F 0 = .ok (.wrCaps 0x3F) := by decide
theorem test_decode_rdCsrRsvd5 : decodeHost 0x0500000000 0 = .ok (.rdCsrRsvd5 0) := by decide
theorem test_decode_rdCsrRsvd6to7 : decodeHost 0x0600000000 0 = .ok (.rdCsrRsvd6to7 6 0) ∧
    decodeHost 0x0700000000 0 = .ok (.rdCsrRsvd6to7 7 0) := by decide
theorem test_decode_rdCsrRsvd8to15 : decodeHost 0x0900000000 0 = .ok (.rdCsrRsvd8to15 9 0) ∧
    decodeHost 0x0F00000000 0 = .ok (.rdCsrRsvd8to15 15 0) := by decide
theorem test_decode_wrCsrRsvd5 : decodeHost 0x8500000000 0 = .ok (.wrCsrRsvd5 0) := by decide
theorem test_decode_wrCsrRsvd6to7 : decodeHost 0x8700000001 0 = .ok (.wrCsrRsvd6to7 7 1) := by decide
theorem test_decode_wrCsrRsvd8to15 : decodeHost 0x8F00000001 0 = .ok (.wrCsrRsvd8to15 15 1) := by decide
theorem test_decode_wrIn : decodeHost 0xA0000000FF 7 = .ok (.wrIn 0xFF 7) := by decide
theorem test_decode_rdIn : decodeHost 0x2000000000 5 = .ok (.rdIn 0 5) := by decide
theorem test_decode_rdDout : decodeHost 0x4000000000 31 = .ok (.rdDout 0 31) := by decide
theorem test_decode_wrDout : decodeHost 0xC000000000 0 = .ok (.wrDout 0 0) := by decide
-- keys 0x60, 0x90, 0x21 (V-D14 to V-D16), and 0x70, to which both reasons of R75 apply
theorem test_decode_reserved_keys : decodeHost 0x6000000000 0 = .error [.hostSpaceReserved] ∧
    decodeHost 0x9000000000 0 = .error [.hostKeyReserved] ∧ decodeHost 0x2100000000 0 = .error [.hostKeyReserved] ∧
    decodeHost 0x7000000000 0 = .error [.hostSpaceReserved, .hostKeyReserved] := by decide
theorem test_decodeTableWord : decodeTableWord 32 0x010C8402 = some (.g 0 4 8 12 0 1) ∧
    decodeTableWord 40 0x8000000001 = some (.hash 1) ∧ decodeTableWord 32 0 = none ∧
    decodeTableWord 40 0x6000000000 = none := by decide
theorem test_gText : uopText (.g 0 4 8 12 0 1) = some "G 0, 4, 8, 12, m0, m1" := by decide +kernel

/-! ### Small states -/

/-- `(0, 1, ..., 15)`. -/
def upTo16 : Block := #v[0, 1, 2, 3, 4, 5, 6, 7, 8, 9, 10, 11, 12, 13, 14, 15]

/-- Reset, with the given S and M. -/
def withRegs (s m : Block) : State := { State.reset with lane := { State.reset.lane with s := s, m := m } }

/-- Reset, with the operands of V-C1: CV = IV, BLEN = 64, FLG = 3. -/
def operandState : State := { State.reset with lane := { State.reset.lane with cv := iv, blen := 64, flg := 3 } }

/-- Reset, with the given length, capacity and STATUS. -/
def lengthState (lenHi lenLo status : Word) (log2NMax : BitVec 6) : State :=
  { State.reset with lenHi := lenHi, lenLo := lenLo, status := status, log2NMax := log2NMax }

/-- A run over 1024 chunks, at the given position and with CV = IV. -/
def runState (phase : Phase) (sub : Sub) (ci : BitVec 64) (bj : BitVec 4) (lvl : BitVec 6) (node : BitVec 64) : State :=
  { State.reset with
    lane := { State.reset.lane with cv := iv, upc := if sub = .store then 63 else 0 }
    drv := { phase := phase, sub := sub, nreg := 1024, logn := 10, ci := ci, bj := bj, lvl := lvl, node := node }
    status := 0x00000001 }

/-- The next state of an answer; reset where it stops. -/
def nextOf : Res → State
  | .next s => s
  | _ => State.reset

/-- Whether an answer is a next state. -/
def goesOn : Res → Bool
  | .next _ => true
  | _ => false

/-! ### The functions of Part A -/

-- V-G1, V-G3, V-G5
theorem test_mixG : mixG upTo16 0 4 8 12 0x11111111 0x22222222 =
    #v[0x450444C8, 1, 2, 3, 0xFFF7787F, 5, 6, 7, 0xEA6D2E6E, 9, 10, 11, 0xD9541D55, 13, 14, 15] := by decide +kernel
-- V-G6 (a = c) and V-G7 (a = b)
theorem test_mixG_aliased : mixG upTo16 0 4 0 12 0x100 0x200 =
    #v[0x95181397, 1, 2, 3, 0x2F0A3006, 5, 6, 7, 8, 9, 10, 11, 0x84100013, 13, 14, 15] ∧
    mixG upTo16 5 5 10 15 1 1 =
    #v[0, 1, 2, 3, 4, 0x17024849, 6, 7, 8, 9, 0x8104240A, 11, 12, 13, 14, 0x81002400] := by decide +kernel
-- V-R1, by both forms of R117 and R118
theorem test_round : round upTo16 upTo16 =
    #v[0x842AF71F, 0x00639C96, 0x617F60D4, 0x56276DBC, 0x4CCFD17A, 0x7678B9BE, 0xBD422E5F, 0xAAFB629E,
      0x1B1EEF98, 0x23B36721, 0xECEFB5C4, 0x0A57397C, 0xB54D8A4C, 0x1B1B85C1, 0x7707814D, 0x68D73F43] := by
  decide +kernel
theorem test_roundByRows : roundByRows upTo16 upTo16 =
    #v[0x842AF71F, 0x00639C96, 0x617F60D4, 0x56276DBC, 0x4CCFD17A, 0x7678B9BE, 0xBD422E5F, 0xAAFB629E,
      0x1B1EEF98, 0x23B36721, 0xECEFB5C4, 0x0A57397C, 0xB54D8A4C, 0x1B1B85C1, 0x7707814D, 0x68D73F43] := by
  decide +kernel
-- V-C2: the counter's high word reaches S[13]
theorem test_compress : compress iv upTo16 0x0000000100000002 64 0 =
    #v[0xE9E67CC3, 0x6E3B96BF, 0xE1B0119F, 0x1E87E3E0, 0xBADD10A4, 0x8DADDCE2, 0x7B0274CF, 0x2B68F01E] := by
  decide +kernel
-- V-W1, V-W2, V-W5, V-W6
theorem test_codec : wordFromLeBytes #v[0x01, 0x02, 0x03, 0x04] = 0x04030201 ∧
    wordFromLeBytes #v[0xFF, 0x00, 0x00, 0x80] = 0x800000FF ∧ wordToLeBytes 0x04030201 = #v[0x01, 0x02, 0x03, 0x04] ∧
    wordToLeBytes 0x80000000 = #v[0x00, 0x00, 0x00, 0x80] := by decide +kernel
-- V-W7
theorem test_digestFromCv : (digestFromCv iv).toList =
    [0x67, 0xe6, 0x09, 0x6a, 0x85, 0xae, 0x67, 0xbb, 0x72, 0xf3, 0x6e, 0x3c, 0x3a, 0xf5, 0x4f, 0xa5,
      0x7f, 0x52, 0x0e, 0x51, 0x8c, 0x68, 0x05, 0x9b, 0xab, 0xd9, 0x83, 0x1f, 0x19, 0xcd, 0xe0, 0x5b] := by
  decide +kernel

/-! ### One step of each instruction -/

-- R126's example
theorem test_init : (nextOf (exec .init operandState)).lane.s =
    #v[0x6A09E667, 0xBB67AE85, 0x3C6EF372, 0xA54FF53A, 0x510E527F, 0x9B05688C, 0x1F83D9AB, 0x5BE0CD19,
      0x6A09E667, 0xBB67AE85, 0x3C6EF372, 0xA54FF53A, 0, 0, 0x40, 3] := by decide +kernel
-- R127's example, as a core step on the word in the ROM
theorem test_g_step : (nextOf (step ((withRegs upTo16 #v[0x11111111, 0x22222222, 0, 0, 0, 0, 0, 0, 0, 0, 0, 0, 0, 0, 0, 0]).withFetchWord
    32 0x010C8402))).lane.s =
    #v[0x450444C8, 1, 2, 3, 0xFFF7787F, 5, 6, 7, 0xEA6D2E6E, 9, 10, 11, 0xD9541D55, 13, 14, 15] := by decide +kernel
-- R128's example
theorem test_perm : (nextOf (exec .perm (withRegs upTo16 upTo16))).lane.m =
    #v[2, 6, 3, 10, 7, 0, 4, 13, 1, 11, 12, 5, 9, 14, 15, 8] := by decide +kernel
-- R129 on S = (0, ..., 15): each `i ^ (i+8)` is 8
theorem test_final : (nextOf (exec .final (withRegs upTo16 upTo16))).lane.cv = #v[8, 8, 8, 8, 8, 8, 8, 8] := by
  decide +kernel
-- V-D4: an illegal word faults with upc and the word
theorem test_illegal_uop : (match step (State.reset.withFetchWord 32 0) with
    | .fault (.illegalUop upc u) => decide (upc = 0 ∧ u = 0)
    | _ => false) = true := by decide +kernel
-- V-X1 to V-X11
theorem test_hash_invalid : ((nextOf (exec (.hash 1) (lengthState 0 0 0 12))).status = 0x6) ∧
    (nextOf (exec (.hash 1) (lengthState 0 1024 0 12))).status = 0x6 ∧
    (nextOf (exec (.hash 1) (lengthState 0 1047552 0 12))).status = 0x6 ∧
    (nextOf (exec (.hash 1) (lengthState 0 1048577 0 12))).status = 0x6 ∧
    (nextOf (exec (.hash 1) (lengthState 0 3145728 0 10))).status = 0x6 := by decide +kernel
theorem test_hash_capacity : (nextOf (exec (.hash 1) (lengthState 0 2097152 0 10))).status = 0xA ∧
    (nextOf (exec (.hash 1) (lengthState 0 2097152 0 11))).status = 0x1 ∧
    (nextOf (exec (.hash 1) (lengthState 1 0 0 12))).status = 0xA ∧
    (nextOf (exec (.hash 1) (lengthState 0 1048576 6 12))).status = 0x1 := by decide +kernel
-- R171's example
theorem test_hash_latches : (nextOf (exec (.hash 1) (lengthState 0 0x00100000 0 10))).drv.nreg = 1024 ∧
    (nextOf (exec (.hash 1) (lengthState 0 0x00100000 0 10))).drv.logn = 10 := by decide +kernel
-- P6: HASH while BUSY is ignored
theorem test_hash_busy : (nextOf (exec (.hash 1) (lengthState 0 0 1 12))).status = 0x1 := by decide +kernel
theorem test_ctrlNop : (nextOf (exec (.ctrlNop 0xFFFFFFFE) (lengthState 0 0x00100000 0 12))).status = 0 := by
  decide +kernel
theorem test_rdCtrl : (nextOf (exec (.rdCtrl 0) (lengthState 0 0 1 12))).port.reply = some (.word 0) := by decide +kernel
theorem test_rdStatus : (nextOf (exec (.rdStatus 0) (lengthState 0 0 2 12))).port.reply = some (.word 2) := by
  decide +kernel
-- R175's example
theorem test_wrStatus : (nextOf (exec (.wrStatus 0) (lengthState 0 0 6 12))).status = 6 := by decide +kernel
-- R178's example
theorem test_wrLenLo_rdLenLo :
    (nextOf (exec (.rdLenLo 0) (nextOf (exec (.wrLenLo 0x1234) State.reset)))).port.reply = some (.word 0x1234) := by
  decide +kernel
theorem test_wrLenHi_rdLenHi :
    (nextOf (exec (.rdLenHi 0) (nextOf (exec (.wrLenHi 0x55) State.reset)))).port.reply = some (.word 0x55) := by
  decide +kernel
-- R180's example
theorem test_rdCaps : (nextOf (exec (.rdCaps 0) (lengthState 0 0 0 12))).port.reply = some (.word 0xC) := by
  decide +kernel
theorem test_wrCaps : (nextOf (exec (.wrCaps 0x3F) (lengthState 0 0 0 12))).log2NMax = 12 := by decide +kernel
-- R182's example
theorem test_rdCsrRsvd : (nextOf (exec (.rdCsrRsvd8to15 9 0) State.reset)).port.reply = some (.word 0) ∧
    (nextOf (exec (.rdCsrRsvd6to7 6 0) State.reset)).port.reply = some (.word 0) ∧
    (nextOf (exec (.rdCsrRsvd5 0) State.reset)).port.reply = some (.word 0) := by decide +kernel
-- R183's example
theorem test_wrCsrRsvd : (nextOf (exec (.wrCsrRsvd8to15 15 1) State.reset)).port.reply = some .ack ∧
    (nextOf (exec (.wrCsrRsvd6to7 7 1) State.reset)).port.reply = some .ack ∧
    (nextOf (exec (.wrCsrRsvd5 1) State.reset)).port.reply = some .ack := by decide +kernel
-- R186's example; DATA32[31:8] is ignored
theorem test_wrIn_rdIn :
    (nextOf (exec (.rdIn 0 5) (nextOf (exec (.wrIn 0xABCD002A 5) State.reset)))).port.reply = some (.byte 0x2A) := by
  decide +kernel
-- P5: 0x100000 = IN_BYTES for LOG2_NMAX = 10; P6: refused while BUSY
theorem test_wrIn_refused :
    (nextOf (exec (.wrIn 0 0x100000) (lengthState 0 0 0 10))).port.refused = [.inAddressOutOfRange] ∧
    (nextOf (exec (.wrIn 0 0) (lengthState 0 0 1 10))).port.refused = [.inBusy] ∧
    (nextOf (exec (.wrIn 7 0xFFFFF) (lengthState 0 0 0 10))).port.reply = some .ack := by decide +kernel
theorem test_rdIn_refused :
    (nextOf (exec (.rdIn 0 0x100000) (lengthState 0 0 1 10))).port.refused = [.inAddressOutOfRange] ∧
    (nextOf (exec (.rdIn 0 0xFFFFF) (lengthState 0 0 1 10))).port.reply = some (.byte 0) := by decide +kernel
theorem test_rdDout : (nextOf (exec (.rdDout 0 31) { State.reset with dout := digestFromCv iv })).port.reply =
    some (.byte 0x5b) ∧
    (nextOf (exec (.rdDout 0 32) State.reset)).port.refused = [.doutAddressOutOfRange] := by decide +kernel
theorem test_wrDout : (nextOf (exec (.wrDout 0x55 0) State.reset)).dout = State.reset.dout ∧
    (nextOf (exec (.wrDout 0x55 32) State.reset)).port.refused = [.doutAddressOutOfRange] := by decide +kernel
-- R184
theorem test_csrAccess_malformed :
    (nextOf (hostStep (.csrAccess false 2 32 0) State.reset)).port.refused = [.csrMisaligned] ∧
    (nextOf (hostStep (.csrAccess true 4 16 0) State.reset)).port.refused = [.csrWidth] ∧
    (nextOf (hostStep (.csrAccess false 0x40 32 0) State.reset)).port.refused = [.csrOutOfRange] := by decide +kernel
theorem test_csrAccess_wellformed :
    (nextOf (hostStep (.csrAccess true 0x08 32 0x1234) State.reset)).lenLo = 0x1234 ∧
    (nextOf (hostStep (.csrAccess false 0x10 32 0) State.reset)).port.reply = some (.word 12) := by decide +kernel

/-! ### One driver step of each kind -/

-- R156 with BJ = 15 of chunk 3: address 1024·3 + 64·15 = 4032, FLG = 2, CNT = 3, CV chained
theorem test_leafLoad :
    let t := nextOf (coreStep { runState .leaf .load 3 15 0 0 with inMem := [(4032, 0x78), (4035, 0x12), (4095, 0xAA)] })
    t.lane.m[0] = 0x12000078 ∧ t.lane.m[15] = 0xAA000000 ∧ t.lane.flg = 2 ∧ t.lane.cnt = 3 ∧ t.lane.blen = 64 ∧
      t.drv.sub = .run := by decide +kernel
-- R157 at upc = 63 (FINAL): block 14 goes to LOAD of block 15, block 15 to STORE
theorem test_run_end :
    let final := fun bj : BitVec 4 => { runState .leaf .run 0 bj 0 0 with lane := { State.reset.lane with upc := 63 } }
    (nextOf (coreStep (final 14))).drv.sub = .load ∧ (nextOf (coreStep (final 14))).drv.bj = 15 ∧
      (nextOf (coreStep (final 15))).drv.sub = .store ∧ (nextOf (coreStep (final 15))).drv.bj = 15 ∧
      (nextOf (coreStep (final 15))).lane.upc = 63 := by decide +kernel
-- R158: the last chunk opens level 1
theorem test_leafStore :
    let t := nextOf (coreStep (runState .leaf .store 1023 15 0 0))
    t.scr0 = [(1023, iv)] ∧ t.drv.phase = .parent ∧ t.drv.lvl = 1 ∧ t.drv.node = 0 ∧ t.drv.bj = 0 ∧ t.drv.sub = .load := by
  decide +kernel
-- R159: level 2 reads bank 1, slots 6 and 7 for node 3
theorem test_parentLoad :
    let t := nextOf (coreStep { runState .parent .load 1023 0 2 3 with
      scr1 := [(6, #v[10, 11, 12, 13, 14, 15, 16, 17]), (7, #v[20, 21, 22, 23, 24, 25, 26, 27])] })
    t.lane.m = #v[10, 11, 12, 13, 14, 15, 16, 17, 20, 21, 22, 23, 24, 25, 26, 27] ∧ t.lane.cv = iv ∧ t.lane.flg = 4 := by
  decide +kernel
-- R160: the last node of level 8 opens level 9, the last of level 9 the root
theorem test_parentStore :
    let t := nextOf (coreStep (runState .parent .store 1023 0 8 3))
    let u := nextOf (coreStep (runState .parent .store 1023 0 9 1))
    t.scr0 = [(3, iv)] ∧ t.drv.lvl = 9 ∧ t.drv.node = 0 ∧ t.drv.phase = .parent ∧
      u.scr1 = [(1, iv)] ∧ u.drv.phase = .root ∧ u.drv.sub = .load := by decide +kernel
-- R161: LOGN = 10 reads bank 1
theorem test_rootLoad :
    let t := nextOf (coreStep { runState .root .load 1023 0 9 1 with
      scr1 := [(0, #v[10, 11, 12, 13, 14, 15, 16, 17]), (1, #v[20, 21, 22, 23, 24, 25, 26, 27])] })
    t.lane.m = #v[10, 11, 12, 13, 14, 15, 16, 17, 20, 21, 22, 23, 24, 25, 26, 27] ∧ t.lane.flg = 0xC := by
  decide +kernel
-- R162
theorem test_export :
    let t := nextOf (coreStep (runState .root .store 1023 0 9 1))
    t.dout = digestFromCv iv ∧ t.status = 2 ∧ t.drv.phase = .idle ∧ t.drv.sub = .load := by decide +kernel
-- R220
theorem test_reset_event :
    let t := nextOf (step { runState .leaf .run 3 0 0 0 with
      inMem := [(0, 0xFF)], lenLo := 5, port := { inbox := [.reset], reply := none, refused := [.inBusy] } })
    t.status = 0 ∧ t.lenLo = 0 ∧ t.drv.phase = .idle ∧ t.lane.upc = 0 ∧ t.inMem = [(0, 0xFF)] ∧
      t.port.refused = [.inBusy] ∧ t.port.inbox = [] := by decide +kernel
-- R30, R28: the next step after reset and HASH is LEAF LOAD, then INIT runs at upc = 0
theorem test_first_steps :
    let s := nextOf (step { lengthState 0 0x00100000 0 12 with
      port := { inbox := [.host (wr32 regCtrl 1)], reply := none, refused := [] } })
    s.drv.phase = .leaf ∧ (nextOf (step s)).drv.sub = .run ∧ (nextOf (step (nextOf (step s)))).lane.upc = 1 := by
  decide +kernel

/-! ### More lanes than one (R27, R151, R152, R163; the sequencer of notes/assumptions/3.md) -/

/-- A run with three lanes at the given task of level 9, which has two nodes: the lane whose turn it is has a task or
none, the others wait, `taken` and `stored` as given. -/
def threeLanes (waiting : Bool) (sub : Sub) (node : BitVec 64) (taken : List Nat) (stored : Nat) : State :=
  { runState .parent sub 1023 0 9 node with
    team := { waiting := waiting
              parked := [{ seatAtReset with waiting := true }, { seatAtReset with waiting := true, node := 7 }]
              taken := taken, stored := stored } }

-- node 1 picked; node 0, the least left, where the pick has been taken; the turn passed on where none is left (R151, R152)
theorem test_takeTask :
    let t := nextOf (laneStep 1 (threeLanes true .load 0 [] 0))
    let u := nextOf (laneStep 1 (threeLanes true .load 0 [1] 0))
    let v := nextOf (laneStep 0 (threeLanes true .load 5 [0, 1] 1))
    t.drv.node = 1 ∧ t.team.taken = [1] ∧ t.team.waiting = false ∧ u.drv.node = 0 ∧ u.team.taken = [0, 1] ∧
      v.drv.node = 0 ∧ (v.team.parked.map Seat.node) = [7, 5] ∧ v.team.taken = [0, 1] := by decide +kernel
-- R153: node 1's CV goes to slot 1 of bank 1 whoever stores it; node 0 outstanding holds the barrier (R152)
theorem test_parentStore_barrier :
    let t := nextOf (coreStep (threeLanes false .store 1 [1, 0] 0))
    let u := nextOf (coreStep (threeLanes false .store 1 [1, 0] 1))
    t.scr1 = [(1, iv)] ∧ t.drv.phase = .parent ∧ t.team.waiting = true ∧ t.team.stored = 1 ∧
      u.scr1 = [(1, iv)] ∧ u.drv.phase = .root ∧ u.team = u.team.fresh := by decide +kernel
-- a turn of the lane two places on takes its place, with its own NODE
theorem test_laneTurn :
    let t := nextOf (laneTurn 2 1 (threeLanes false .run 0 [0] 0))
    t.drv.node = 1 ∧ t.drv.sub = .load ∧ t.team.taken = [1, 0] ∧ (t.team.parked.map Seat.waiting) = [false, true] ∧
      t.lanes = 3 := by decide +kernel

end Sys2Proof.Tests
end

