-- ==== Sys2Proof/Tests/Witnesses.lean ====
section
/-! SUPPORT. For each statement of Certificates/Slice0/Obligations.lean that has hypotheses, a concrete state and
operands that meet all of them together; for a statement of several clauses, one for each clause at a boundary of
its range. -/

set_option Elab.async false

namespace Sys2Proof.Tests

open Sys2Proof.Machine

/-! ### Encoding -/

theorem witness_DecodeEncodeRoundTrip : (Instr.g 15 15 0 0 15 0).wellFormed = true ∧
    (Instr.hash 0xFFFFFFFF).wellFormed = true ∧ (Instr.rdCsrRsvd8to15 15 0xFFFFFFFF).wellFormed = true := by decide

theorem witness_EncodeDecodeRoundTrip : decode (.uop 0x0FFFFFF2) = .ok (.g 15 15 15 15 15 15) ∧
    decode (.host 0x0F00000000 9) = .ok (.rdCsrRsvd8to15 15 0) ∧
    decode (.host 0x4000000000 31) = .ok (.rdDout 0 31) := by decide

/-- Each row's match word meets its row's mask; the ranges of indices at both ends. -/
theorem witness_OpcodeMapRows :
    (0x0FFFFFF2 : BitVec 32) &&& 0xF000000F = 0x00000002 ∧
    (0x80FFFFFFFF : BitVec 40) &&& 0xFF00000001 = 0x8000000001 ∧
    (0x80FFFFFFFE : BitVec 40) &&& 0xFF00000001 = 0x8000000000 ∧
    (0x07FFFFFFFF : BitVec 40) &&& 0xFE00000000 = 0x0600000000 ∧
    (0x0800000000 : BitVec 40) &&& 0xF800000000 = 0x0800000000 ∧
    (0x0F00000000 : BitVec 40) &&& 0xF800000000 = 0x0800000000 ∧
    (0x8600000000 : BitVec 40) &&& 0xFE00000000 = 0x8600000000 ∧
    (0x8F00000000 : BitVec 40) &&& 0xF800000000 = 0x8800000000 ∧
    (0xC0FFFFFFFF : BitVec 40) &&& 0xFF00000000 = 0xC000000000 := by decide

/-- A run whose ROM word at `upc` is the given one. -/
def romState (u : BitVec 32) : State := { runState .leaf .run 0 0 0 0 with rom := uopRom.set 0 u }

theorem witness_IllegalUopFaults :
    (romState 0).drv.phase ≠ .idle ∧ (romState 0).team.waiting = false ∧ (romState 0).drv.sub = .run ∧
    ((romState 0).rom[(romState 0).lane.upc.toFin]).extractLsb' 0 4 = 0 ∧
    ((romState 0x13).rom[(romState 0x13).lane.upc.toFin]).extractLsb' 4 28 ≠ 0 ∧
    ((romState 0x10000002).rom[(romState 0x10000002).lane.upc.toFin]).extractLsb' 28 4 ≠ 0 := by decide +kernel

theorem witness_MalformedAccessesRefused :
    1 % 4 ≠ 0 ∧ 8 ≠ 32 ∧ 0x40 ≤ 0x40 ∧
    (0x6000000000 : BitVec 40).extractLsb' 37 2 = 3 ∧ (0x9000000000 : BitVec 40).extractLsb' 36 1 = 1 ∧
    (0x2100000000 : BitVec 40).extractLsb' 37 2 = 1 ∧ (0x2100000000 : BitVec 40).extractLsb' 32 4 ≠ 0 ∧
    (0xCF00000000 : BitVec 40).extractLsb' 37 2 = 2 ∧ (0xCF00000000 : BitVec 40).extractLsb' 32 4 ≠ 0 := by decide

theorem witness_HashCommandEncoding :
    (0x80FFFFFFFF : BitVec 40) &&& 0xFF00000001 = 0x8000000001 ∧
    (0x80FFFFFFFE : BitVec 40) &&& 0xFF00000001 = 0x8000000000 := by decide

/-! ### Compression -/

theorem witness_RotrBits : 31 < 32 ∧ 0 < 32 ∧ 1 ≤ 31 ∧ 31 ≤ 31 := by decide

theorem witness_GMixesDistinctIndices : (0 : BitVec 4) ≠ 5 ∧ (0 : BitVec 4) ≠ 10 ∧ (0 : BitVec 4) ≠ 15 ∧
    (5 : BitVec 4) ≠ 10 ∧ (5 : BitVec 4) ≠ 15 ∧ (10 : BitVec 4) ≠ 15 ∧
    (1 : BitVec 4) ≠ 0 ∧ (1 : BitVec 4) ≠ 5 ∧ (1 : BitVec 4) ≠ 10 ∧ (1 : BitVec 4) ≠ 15 := by decide

theorem witness_PermuteHasOrderEight : 0 < 7 ∧ 7 < 8 := by decide

/-- The root, a leaf block below 15 and the last leaf block: the two ways the driver goes on. -/
theorem witness_RomComputesCompress :
    ∀ s ∈ [runState .root .run 1023 0 9 1, runState .leaf .run 1023 14 0 0, runState .leaf .run 1023 15 0 0],
      s.rom = uopRom ∧ s.drv.phase ≠ .idle ∧ s.team.waiting = false ∧ s.drv.sub = .run ∧ s.lane.upc = 0 ∧
        s.port.inbox = [] := by decide +kernel

/-! ### The driver -/

theorem witness_IdleCoreWaits : operandState.drv.phase = .idle ∧ operandState.port.inbox = [] := ⟨rfl, rfl⟩

/-- The last block of the last chunk of IN: LOG2_NMAX = 10. -/
def lastBlock : State := { runState .leaf .load 1023 15 0 0 with log2NMax := 10 }

theorem witness_LeafLoadStep : lastBlock.drv.phase = .leaf ∧ lastBlock.drv.sub = .load ∧
    lastBlock.team.waiting = false ∧
    1024 * lastBlock.drv.ci.toNat + 64 * lastBlock.drv.bj.toNat + 64 ≤ lastBlock.inBytes := by decide +kernel

theorem witness_RunStepAdvances : ∃ t, (runState .leaf .run 0 14 0 0).drv.phase ≠ .idle ∧
    (runState .leaf .run 0 14 0 0).drv.sub = .run ∧ (runState .leaf .run 0 14 0 0).team.waiting = false ∧
    decodeUop ((runState .leaf .run 0 14 0 0).rom[(runState .leaf .run 0 14 0 0).lane.upc.toFin]) = .ok .init ∧
    exec .init (runState .leaf .run 0 14 0 0) = .next t :=
  ⟨_, by decide, rfl, rfl, by decide +kernel, rfl⟩

theorem witness_LeafStoreStep :
    let s := { runState .leaf .store 1023 15 0 0 with log2NMax := 10 }
    s.drv.phase = .leaf ∧ s.drv.sub = .store ∧ s.team.waiting = false ∧ s.lanes = 1 ∧ s.drv.ci.toNat < s.nMax := by decide +kernel

theorem witness_ParentLoadStep :
    let s := { runState .parent .load 1023 0 1 511 with log2NMax := 10 }
    s.drv.phase = .parent ∧ s.drv.sub = .load ∧ s.team.waiting = false ∧ 1 ≤ s.drv.lvl.toNat ∧ 2 * s.drv.node.toNat + 1 < s.nMax := by
  decide +kernel

theorem witness_ParentStoreStep :
    let s := runState .parent .store 1023 0 9 1
    s.drv.phase = .parent ∧ s.drv.sub = .store ∧ s.team.waiting = false ∧ s.lanes = 1 ∧ s.drv.node.toNat < s.nMax := by decide +kernel

theorem witness_RootLoadStep :
    let s := runState .root .load 1023 0 9 1
    s.drv.phase = .root ∧ s.drv.sub = .load ∧ s.team.waiting = false ∧ 1 ≤ s.drv.logn.toNat ∧ 1 < s.nMax := by decide +kernel

theorem witness_ExportStep :
    (runState .root .store 1023 0 9 1).drv.phase = .root ∧ (runState .root .store 1023 0 9 1).drv.sub = .store ∧
      (runState .root .store 1023 0 9 1).team.waiting = false := ⟨rfl, rfl, rfl⟩

theorem witness_ChunkRunStoresLeaf :
    let s := { runState .leaf .load 1023 0 0 0 with log2NMax := 10 }
    s.rom = uopRom ∧ s.drv.phase = .leaf ∧ s.drv.sub = .load ∧ s.drv.bj = 0 ∧ s.port.inbox = [] ∧
      s.team.waiting = false ∧ s.lanes = 1 ∧ s.drv.ci.toNat < s.nMax := by decide +kernel

theorem witness_ParentRunStoresNode :
    let s := { runState .parent .load 1023 0 1 511 with log2NMax := 10 }
    s.rom = uopRom ∧ s.drv.phase = .parent ∧ s.drv.sub = .load ∧ s.port.inbox = [] ∧
      s.team.waiting = false ∧ s.lanes = 1 ∧ 1 ≤ s.drv.lvl.toNat ∧ 2 * s.drv.node.toNat + 1 < s.nMax := by decide +kernel

/-- The state HASH leaves for 1024 chunks. -/
def startState : State := runState .leaf .load 0 0 0 0

theorem startState_runStart : startState.RunStart 10 :=
  { sizes := by decide, romFixed := rfl, phase := rfl, sub := rfl, ci := rfl, bj := rfl, nreg := by decide
    logn := by decide, team := rfl, status := rfl }

theorem witness_RunReachesDigest : startState.RunStart 10 ∧ startState.lanes = 1 ∧ startState.port.inbox = [] :=
  ⟨startState_runStart, rfl, rfl⟩

/-- A host that polls STATUS and tries to write IN, and then the given number of core turns. -/
def pollingSchedule (turns : Nat) : List Event :=
  .host (rd32 regStatus) :: .host (wrin 0 0x55) :: List.replicate turns .coreTurn

theorem pollingSchedule_events (turns : Nat) :
    ∀ e ∈ pollingSchedule turns, e ≠ Event.reset ∧ ∀ lane pick, e ≠ Event.laneTurn lane pick := by
  intro e he
  simp only [pollingSchedule, List.mem_cons, List.mem_replicate] at he
  rcases he with rfl | rfl | ⟨-, rfl⟩ <;> simp

theorem pollingSchedule_count (turns : Nat) : (pollingSchedule turns).count Event.coreTurn = turns := by
  simp [pollingSchedule]

theorem witness_ScheduledRunReachesDigest :
    ∃ s : State, s.RunStart 10 ∧ s.lanes = 1 ∧ s.port.inbox = pollingSchedule 1133501 ++ [.coreTurn] ∧
      (∀ e ∈ pollingSchedule 1133501, e ≠ Event.reset ∧ ∀ lane pick, e ≠ Event.laneTurn lane pick) ∧
      (pollingSchedule 1133501).count Event.coreTurn + 1 = runSteps (2 ^ 10) :=
  ⟨{ startState with port := { inbox := pollingSchedule 1133501 ++ [.coreTurn], reply := none, refused := [] } },
    { sizes := by decide, romFixed := rfl, phase := rfl, sub := rfl, ci := rfl, bj := rfl, nreg := by decide
      logn := by decide, team := rfl, status := rfl },
    rfl, rfl, pollingSchedule_events _, by rw [pollingSchedule_count]; decide⟩

/-- The nodes of a level of 512 taken from the last to the first, and the level below. -/
theorem witness_LevelOrderIsFree (input : Nat → Byte) : ∃ (order : List Nat) (src : Nat → CVal),
    order ≠ List.range 512 ∧ order.Perm (List.range 512) ∧ ∀ k < 2 * 512, src k = levelCv input 0 k :=
  ⟨(List.range 512).reverse, levelCv input 0, by decide +kernel, List.reverse_perm _, fun _ _ => rfl⟩

/-- Each clause: a task picked (the greatest number in the level), a pick above the level or taken already with one task
left, none left, and STORE steps before the level's last and at it, for a chunk and at the levels on both sides of the
root's. -/
theorem witness_LanesTakeAndStoreTasks :
    (∀ s ∈ [threeLanes false .run 0 [0] 0, threeLanes true .load 0 [] 0, threeLanes true .load 0 [0, 1] 1],
      s.drv.phase ≠ .idle) ∧
    (threeLanes false .run 0 [0] 0).team.waiting = false ∧
    (let s := threeLanes true .load 0 [] 0;
      s.team.waiting = true ∧ 1 < s.levelTasks ∧ 1 ∉ s.team.taken ∧ s.levelTasks ≤ 2 ∧ 0 < s.levelTasks) ∧
    (let s := threeLanes true .load 0 [0] 0;
      s.team.waiting = true ∧ 0 ∈ s.team.taken ∧ 1 < s.levelTasks ∧ 1 ∉ s.team.taken ∧ ∀ j < 1, j ∈ s.team.taken) ∧
    (let s := threeLanes true .load 0 [0, 1] 1;
      s.team.waiting = true ∧ ∀ k < s.levelTasks, k ∈ s.team.taken) ∧
    (∀ stored ∈ [1022, 1023],
      let s := { runState .leaf .store 1023 15 0 0 with
        log2NMax := 10, team := (threeLanes false .store 0 [] stored).team };
      s.drv.phase = .leaf ∧ s.drv.sub = .store ∧ s.team.waiting = false ∧ s.lanes ≠ 1 ∧ s.drv.ci.toNat < s.nMax) ∧
    (∀ stored ∈ [0, 1],
      let s := threeLanes false .store 1 [1, 0] stored;
      s.drv.phase = .parent ∧ s.drv.sub = .store ∧ s.team.waiting = false ∧ s.lanes ≠ 1 ∧ s.drv.node.toNat < s.nMax) ∧
    (let s := { runState .parent .store 1023 0 8 3 with team := (threeLanes false .store 3 [0, 1, 2, 3] 3).team };
      s.drv.phase = .parent ∧ s.drv.sub = .store ∧ s.team.waiting = false ∧ s.lanes ≠ 1 ∧
        s.drv.node.toNat < s.nMax ∧ s.drv.lvl.toNat + 1 < s.drv.logn.toNat) := by decide +kernel

/-- A lane that works, one that takes a task, and an idle core. -/
theorem witness_LanesArePrivate :
    (∃ t, (threeLanes false .run 0 [0] 0).team.waiting = false ∧
      laneStep 0 (threeLanes false .run 0 [0] 0) = .next t ∧ t.lane.upc = 1) ∧
    (∃ t, (∃ k < (threeLanes true .load 0 [0] 0).levelTasks, k ∉ (threeLanes true .load 0 [0] 0).team.taken) ∧
      laneStep 0 (threeLanes true .load 0 [0] 0) = .next t ∧ t.team.taken = [1, 0]) ∧
    (∃ t, operandState.drv.phase = .idle ∧ laneStep 0 operandState = .next t) :=
  ⟨⟨_, rfl, rfl, by decide +kernel⟩, ⟨_, ⟨1, by decide +kernel, by decide⟩, rfl, by decide +kernel⟩, ⟨_, rfl, rfl⟩⟩

/-- The state HASH leaves for 1024 chunks on three lanes, with the given events to come. -/
def startThree (events : List Event) : State :=
  { startState with
    team := { waiting := true, parked := List.replicate 2 { seatAtReset with waiting := true }, taken := [], stored := 0 }
    port := { inbox := events, reply := none, refused := [] } }

theorem startThree_runStart (events : List Event) : (startThree events).RunStart 10 :=
  { startState_runStart with team := rfl }

/-- Three lanes, of which the third takes chunk 1023 first, between two host requests. That a run comes to its parents,
its root and its end is what `RunReachesDigest` says. -/
theorem witness_EveryLaneScheduleReachesDigest : ∃ (s t : State), s.RunStart 10 ∧ s.lanes = 3 ∧
    (∀ e ∈ s.port.inbox, e ≠ Event.reset) ∧ run 2 s = .next t ∧
    (∀ j < 2, ∀ u, run j s = .next u → u.drv.phase ≠ .idle) ∧ t.drv.ci = 1023 := by
  refine ⟨startThree [.host (rd32 regStatus), .laneTurn 2 1023], _, startThree_runStart _, rfl, by simp [startThree],
    rfl, ?_, by decide +kernel⟩
  intro j hj u hu
  match j, hj with
  | 0, _ => cases hu; decide
  | 1, _ => cases hu; decide


theorem witness_InPlaceAscendingIsSafe : 0 < 2 ∧ 1 < 2 := by decide

/-! ### The host interface -/

theorem witness_ValidLengthIsPowerOfTwo : (0x100000 : BitVec 64).toNat = 2 ^ 20 ∧
    (0x8000000000000000 : BitVec 64).toNat = 2 ^ 63 := by decide

theorem witness_HashCommand :
    (lengthState 0 0 1 12).status.getLsbD 0 = true ∧
    (lengthState 0 1024 2 12).status.getLsbD 0 = false ∧ validLength (0#32 ++ 1024#32) = false ∧
    validLength (0#32 ++ 2097152#32) = true ∧ 2 ^ (lengthState 0 2097152 0 10).log2NMax.toNat < 2097152 / 1024 ∧
    2097152 / 1024 ≤ 2 ^ (lengthState 0 2097152 0 11).log2NMax.toNat := by decide +kernel

theorem startState_inv : startState.Inv where
  storage := { capacity := by decide, romFixed := rfl, inWf := rfl, inBelow := rfl, scr0Wf := rfl, scr0Below := rfl
               scr1Wf := rfl, scr1Below := rfl }
  status := { legal := by decide, busyIff := by decide, idleLoad := by decide }
  driver := { latched := by decide, parent := fun h => absurd h (by decide), root := fun h => absurd h (by decide) }
  team := { alone := fun _ _ => ⟨rfl, by decide, fun k hk => absurd hk (Nat.not_lt_zero k)⟩
            shared := fun _ h => absurd rfl h }
  operand := fun _ p hp _ => by
    obtain rfl : p = startState.seat := List.mem_singleton.mp hp
    exact { blen := by decide, leaf := by decide, parent := by decide, root := by decide, stored := by decide
            lastBlock := by decide }

theorem witness_EveryRunEnds : startState.Inv ∧ startState.port.inbox = [] := ⟨startState_inv, rfl⟩

theorem witness_CsrReadsReturnTheirRegister : startState.Inv := startState_inv

/-- A lane that works, and one that takes task 1. -/
theorem witness_LenWrites : (∃ t, laneStep 0 (runState .leaf .run 0 0 0 0) = .next t ∧ t.lane.upc = 1) ∧
    ∃ t, laneStep 1 (threeLanes true .load 0 [] 0) = .next t ∧ t.team.taken = [1] :=
  ⟨⟨_, rfl, by decide +kernel⟩, ⟨_, rfl, by decide +kernel⟩⟩

theorem witness_WrInWritesOneByte :
    1024 * 2 ^ (lengthState 0 0 0 10).log2NMax.toNat ≤ 0x100000 ∧
    0xFFFFF < 1024 * 2 ^ (lengthState 0 0 1 10).log2NMax.toNat ∧ (lengthState 0 0 1 10).status.getLsbD 0 = true ∧
    (lengthState 0 0 2 10).status.getLsbD 0 = false ∧ (lengthState 0 0 2 10).inMem.wf = true := by decide +kernel

theorem witness_InReadsAndDoutTransactions :
    1024 * 2 ^ (lengthState 0 0 0 10).log2NMax.toNat ≤ 0x100000 ∧
    0xFFFFF < 1024 * 2 ^ (lengthState 0 0 1 10).log2NMax.toNat ∧ 32 ≤ 32 ∧ 31 < 32 := by decide +kernel

theorem witness_HostCannotDisturbARun : (runState .leaf .run 0 0 0 0).busy = true := by decide +kernel

/-- The first event of the inbox is the given one. -/
def withEvent (s : State) (e : Event) : State := s.withInbox [e]

/-- Each way STATUS changes: a reset; EXPORT, of the lane whose turn it is and of one two places on; HASH accepted, for
a length that is not valid and above the capacity, as a transaction, and accepted as a CSR write. -/
theorem witness_StatusChangesOnlyBy :
    (∃ t, step (withEvent startState .reset) = .next t ∧ t.status = 0 ∧ startState.status = 1) ∧
    (∃ t, step (runState .root .store 1023 0 9 1) = .next t ∧ t.status = 2) ∧
    (∃ t, step (withEvent { runState .root .load 1023 0 9 1 with team := { waiting := true, taken := [0], stored := 0, parked :=
        [{ seatAtReset with waiting := true }, { seatAtReset with sub := .store }] } } (.laneTurn 2 0)) = .next t ∧
      t.status = 2) ∧
    (∃ t, step (withEvent (lengthState 0 0x100000 0 12) (.host (wr32 regCtrl 1))) = .next t ∧ t.status = 0x1) ∧
    (∃ t, step (withEvent (lengthState 0 1024 0 12) (.host (wr32 regCtrl 1))) = .next t ∧ t.status = 0x6) ∧
    (∃ t, step (withEvent (lengthState 0 0x200000 0 10) (.host (wr32 regCtrl 1))) = .next t ∧ t.status = 0xA) ∧
    (∃ t, step (withEvent (lengthState 0 0x100000 0 12) (.host (.csrAccess true 0 32 0xFFFFFFFF))) = .next t ∧
      t.status = 0x1) ∧
    (wr32 regCtrl 1).isHash = true ∧ (HostRequest.csrAccess true 0 32 0xFFFFFFFF).isHash = true :=
  ⟨⟨_, rfl, by decide +kernel⟩, ⟨_, rfl, by decide +kernel⟩, ⟨_, rfl, by decide +kernel⟩, ⟨_, rfl, by decide +kernel⟩,
    ⟨_, rfl, by decide +kernel⟩, ⟨_, rfl, by decide +kernel⟩, ⟨_, rfl, by decide +kernel⟩, by decide +kernel,
    by decide +kernel⟩

/-! ### Whole-machine rules -/

/-- The least and the greatest capacity, with one lane and with more. -/
theorem witness_InvHoldsAtReset : 10 ≤ (10 : BitVec 6).toNat ∧ (54 : BitVec 6).toNat ≤ 54 ∧ 1 ≤ 1 ∧
    (State.resetWith 54 3).lanes = 3 := by decide +kernel

theorem witness_ResetValues : 1 ≤ 1 ∧ (State.resetWith 54 1).team.parked = [] ∧
    (State.resetWith 54 3).team.parked = [seatAtReset, seatAtReset] := by decide

theorem witness_InvKeptByEveryStep : ∃ t, startState.Inv ∧ step startState = .next t ∧ t.drv.sub = .run :=
  ⟨_, startState_inv, rfl, by decide +kernel⟩

theorem witness_InvStatesNeverFault : startState.Inv := startState_inv

/-- A run at ROOT LOAD: the last level's two slots are written. -/
def rootState : State :=
  { runState .root .load 1023 0 9 1 with scr1 := [(0, #v[1, 2, 3, 4, 5, 6, 7, 8]), (1, #v[9, 10, 11, 12, 13, 14, 15, 16])] }

theorem rootState_inv : rootState.Inv where
  storage := { capacity := by decide, romFixed := rfl, inWf := rfl, inBelow := rfl, scr0Wf := rfl, scr0Below := rfl
               scr1Wf := by decide, scr1Below := by decide }
  status := { legal := by decide, busyIff := by decide, idleLoad := by decide }
  driver := { latched := by decide, parent := fun h => absurd h (by decide)
              root := fun _ k hk => match k, hk with
                | 0, _ => rfl
                | 1, _ => rfl }
  team := { alone := fun _ _ => ⟨rfl, by decide, fun k hk => absurd hk (Nat.not_lt_zero k)⟩
            shared := fun _ h => absurd rfl h }
  operand := fun _ p hp _ => by
    obtain rfl : p = rootState.seat := List.mem_singleton.mp hp
    exact { blen := by decide, leaf := by decide, parent := by decide, root := by decide, stored := by decide
            lastBlock := by decide }

theorem witness_FreeScratchNeverRead : ∃ t, rootState.Inv ∧ laneStep 0 rootState = .next t ∧ t.lane.m[15] = 16 :=
  ⟨_, rootState_inv, rfl, by decide +kernel⟩

/-- Three lanes at the leaf level: one has taken chunk 1023, the other two chunk 0 and nothing. -/
def sharedState : State :=
  { startThree [] with
    drv := { startState.drv with ci := 1023 }
    team := { waiting := false, parked := [seatAtReset, { seatAtReset with waiting := true }], taken := [0, 1023], stored := 0 } }

/-- The invariant with more lanes than one. -/
theorem sharedState_inv : sharedState.Inv where
  storage := { capacity := by decide, romFixed := rfl, inWf := rfl, inBelow := rfl, scr0Wf := rfl, scr0Below := rfl
               scr1Wf := rfl, scr1Below := rfl }
  status := { legal := by decide, busyIff := by decide, idleLoad := by decide }
  driver := { latched := by decide, parent := fun h => absurd h (by decide), root := fun h => absurd h (by decide) }
  team := { alone := fun _ h => absurd h (by decide)
            shared := fun _ _ =>
              { once := by decide, inLevel := by decide, incomplete := by decide, workOnce := by decide
                workTaken := by decide, counted := by decide
                rest := fun k hk hw => absurd ((by decide : ∀ k ∈ sharedState.team.taken, k ∈ sharedState.working) k hk) hw } }
  operand := by
    intro _ p hp _
    have hs : p.sub = .load := (by decide : ∀ p ∈ sharedState.seats, p.sub = .load) p hp
    constructor <;> simp [hs]

/-- A step of one lane of several. -/
theorem witness_InvKeptByEveryStep_lanes : ∃ t, sharedState.Inv ∧ step sharedState = .next t ∧ t.lane.cnt = 1023 :=
  ⟨_, sharedState_inv, rfl, by decide +kernel⟩

theorem witness_DoutChangesOnlyAtExport : ∃ t, step (runState .root .store 1023 0 9 1) = .next t ∧
    t.dout ≠ (runState .root .store 1023 0 9 1).dout := ⟨_, rfl, by decide +kernel⟩

theorem witness_InChangesOnlyByIdleWrIn : ∃ t, step (withEvent State.reset (.host (wrin 5 0x2A))) = .next t ∧
    t.inMem ≠ (withEvent State.reset (.host (wrin 5 0x2A))).inMem := ⟨_, rfl, by decide +kernel⟩

theorem witness_ConfigurationIsFixed : ∃ t, step startState = .next t := ⟨_, rfl⟩

/-- A refused write, and a step that refuses nothing. -/
theorem witness_RefusedMarkIsSticky :
    (∃ t, step (withEvent startState (.host (wrin 0 0))) = .next t ∧ t.port.refused = [.inBusy]) ∧
    (∃ t, step startState = .next t ∧ t.port.refused = []) := ⟨⟨_, rfl, by decide +kernel⟩, ⟨_, rfl, by decide +kernel⟩⟩

theorem witness_ResetEvent : (withEvent startState .reset).port.inbox = .reset :: [] := rfl

/-- A uop word placed first; a turn with no event left, and a turn of the lane two places on; a host transaction. -/
theorem witness_StepRunsDecodedInstruction :
    (∃ t, let s := State.reset.withFetchWord 32 0x010C8402; let u := (s.withInbox s.port.inbox.tail).turnTo 0
      s.nextTurn = some (0, 0) ∧ s.drv.phase ≠ .idle ∧ u.team.waiting = false ∧ u.drv.sub = .run ∧
      decode (.uop u.fetchUop) = .ok (.g 0 4 8 12 0 1) ∧ (Instr.g 0 4 8 12 0 1).wellFormed = true ∧
      exec (.g 0 4 8 12 0 1) u = .next t) ∧
    (∃ t, let s := runState .leaf .run 0 0 0 0; let u := (s.withInbox s.port.inbox.tail).turnTo 0
      s.nextTurn = some (0, 0) ∧ s.drv.phase ≠ .idle ∧ u.team.waiting = false ∧ u.drv.sub = .run ∧
      decode (.uop u.fetchUop) = .ok .init ∧ exec .init u = .next t) ∧
    (∃ t, let s := { sharedState with
        team := { sharedState.team with
          parked := [{ seatAtReset with waiting := true }, { seatAtReset with sub := .run, lane := { laneAtReset with upc := 63 } }] }
        port := { sharedState.port with inbox := [.laneTurn 2 0] } }
      let u := (s.withInbox s.port.inbox.tail).turnTo 2
      s.nextTurn = some (2, 0) ∧ s.drv.phase ≠ .idle ∧ u.team.waiting = false ∧ u.drv.sub = .run ∧
      decode (.uop u.fetchUop) = .ok .final ∧ exec .final u = .next t) ∧
    (State.reset.withFetchWord 40 0x8200100000).port.inbox = .host (.transaction 0x8200100000 0) :: [] ∧
    decode (.host 0x8200100000 0) = .ok (.wrLenLo 0x00100000) ∧ (Instr.wrLenLo 0x00100000).wellFormed = true :=
  ⟨⟨_, rfl, by decide, rfl, rfl, by decide +kernel, rfl, rfl⟩, ⟨_, rfl, by decide, rfl, rfl, by decide +kernel, rfl⟩,
    ⟨_, rfl, by decide, rfl, rfl, by decide +kernel, rfl⟩, by decide +kernel, by decide +kernel, rfl⟩

end Sys2Proof.Tests
end

section
/-! SUPPORT. The answer of a step with its next state changed, and what a turn of a lane does not read: LEN, the host
port, and the reset count but for the draws of a scratch slot nothing has written. -/

namespace Sys2Proof.Machine

/-! ### The next state of an answer -/

/-- The answer with `f` done to its next state; a stop stays a stop. -/
def Res.mapNext (f : State → State) : Res → Res
  | .next s => .next (f s)
  | .fault r => .fault r
  | .refused r => .refused r

@[simp] theorem Res.mapNext_next (f : State → State) (s : State) : Res.mapNext f (.next s) = .next (f s) := rfl
@[simp] theorem Res.mapNext_fault (f : State → State) (r : Fault) : Res.mapNext f (.fault r) = .fault r := rfl
@[simp] theorem Res.mapNext_refused (f : State → State) (r : Refusal) : Res.mapNext f (.refused r) = .refused r := rfl

theorem Res.mapNext_comm {f g : State → State} (h : ∀ s, f (g s) = g (f s)) (r : Res) :
    Res.mapNext f (Res.mapNext g r) = Res.mapNext g (Res.mapNext f r) := by
  cases r <;> simp [h]

theorem finishRun_eq_mapNext (r : Res) : finishRun r = Res.mapNext State.afterUop r := by
  cases r <;> rfl

/-! ### A change of the fields a lane does not read -/

/-- A change of LEN, the host port and the reset count, each by a function of its own. -/
structure UnreadMap where
  lenLo : Word → Word := id
  lenHi : Word → Word := id
  port : Port → Port := id
  resets : Nat → Nat := id

/-- The state with the change made. -/
def State.mapUnread (g : UnreadMap) (s : State) : State :=
  { s with lenLo := g.lenLo s.lenLo, lenHi := g.lenHi s.lenHi, port := g.port s.port, resets := g.resets s.resets }

variable (g : UnreadMap) (s : State)

@[simp] theorem State.mapUnread_lane : (s.mapUnread g).lane = s.lane := rfl
@[simp] theorem State.mapUnread_drv : (s.mapUnread g).drv = s.drv := rfl
@[simp] theorem State.mapUnread_team : (s.mapUnread g).team = s.team := rfl
@[simp] theorem State.mapUnread_fetchUop : (s.mapUnread g).fetchUop = s.fetchUop := rfl

/-! ### The taking of a task -/

theorem State.passTurn_mapUnread : (s.mapUnread g).passTurn = s.passTurn.mapUnread g := by
  unfold State.passTurn
  rw [State.mapUnread_team]
  cases s.team.parked <;> rfl

theorem State.takeTask_mapUnread (pick : Nat) : (s.mapUnread g).takeTask pick = (s.takeTask pick).mapUnread g := by
  have hchoose : (s.mapUnread g).choose pick = s.choose pick := rfl
  unfold State.takeTask
  rw [hchoose]
  cases s.choose pick with
  | some k => rfl
  | none => exact s.passTurn_mapUnread g

/-! ### The steps of a lane that has a task -/

theorem State.scrWrite_mapUnread (b k : Nat) (cv : CVal) :
    (s.mapUnread g).scrWrite b k cv = (s.scrWrite b k cv).mapUnread g := by
  unfold State.scrWrite
  rw [apply_ite (State.mapUnread g)]
  rfl

theorem State.afterStore_mapUnread (alone next : Driver) :
    (s.mapUnread g).afterStore alone next = (s.afterStore alone next).mapUnread g := by
  unfold State.afterStore
  rw [apply_ite (State.mapUnread g), apply_ite (State.mapUnread g)]
  rfl

theorem State.afterUop_mapUnread : (s.mapUnread g).afterUop = (s.afterUop).mapUnread g := by
  unfold State.afterUop
  rw [apply_ite (State.mapUnread g)]
  rfl

theorem leafLoad_mapUnread : leafLoad (s.mapUnread g) = Res.mapNext (State.mapUnread g) (leafLoad s) := by
  unfold leafLoad
  rw [apply_ite (Res.mapNext _)]
  rfl

theorem State.afterLeaf_mapUnread : (s.mapUnread g).afterLeaf = s.afterLeaf.mapUnread g :=
  State.afterStore_mapUnread g { s with drv := { s.drv with bj := 0 } } _ _

theorem State.afterParent_mapUnread : (s.mapUnread g).afterParent = s.afterParent.mapUnread g :=
  s.afterStore_mapUnread g _ _

theorem leafStore_mapUnread : leafStore (s.mapUnread g) = Res.mapNext (State.mapUnread g) (leafStore s) := by
  unfold leafStore
  rw [apply_ite (Res.mapNext _), Res.mapNext_next, ← State.afterLeaf_mapUnread, ← State.scrWrite_mapUnread]
  rfl

theorem parentStore_mapUnread : parentStore (s.mapUnread g) = Res.mapNext (State.mapUnread g) (parentStore s) := by
  unfold parentStore
  rw [apply_ite (Res.mapNext _), Res.mapNext_next, ← State.afterParent_mapUnread, ← State.scrWrite_mapUnread]
  rfl

/-- A uop reads registers of its lane only. -/
theorem exec_uop_mapUnread {u : BitVec 32} {i : Instr} (h : decodeUop u = .ok i) :
    exec i (s.mapUnread g) = Res.mapNext (State.mapUnread g) (exec i s) := by
  rcases decodeUop_cases h with rfl | rfl | rfl | rfl <;> rfl

theorem runStep_mapUnread : runStep (s.mapUnread g) = Res.mapNext (State.mapUnread g) (runStep s) := by
  unfold runStep
  rw [State.mapUnread_fetchUop]
  cases h : decodeUop s.fetchUop with
  | error e => rfl
  | ok i =>
    simp only [finishRun_eq_mapNext, exec_uop_mapUnread g s h]
    exact Res.mapNext_comm (State.afterUop_mapUnread g) _

/-! ### The LOAD of two children, the one step that reads scratch -/

/-- The slots `k` and `k+1` of bank `b` read the same after the change. -/
def State.ReadsPairAlike (b k : Nat) : Prop :=
  (s.mapUnread g).scrRead b k = s.scrRead b k ∧ (s.mapUnread g).scrRead b (k + 1) = s.scrRead b (k + 1)

/-- The two children the lane's LOAD takes in a parent level (R159) or at the root (R161) read the same after the
change. -/
structure State.ReadsChildrenAlike : Prop where
  parent : s.drv.phase = .parent → s.ReadsPairAlike g s.parentSource (2 * s.drv.node.toNat)
  root : s.drv.phase = .root → s.ReadsPairAlike g s.rootSource 0

variable {g s}

theorem State.childrenLoaded_mapUnread {b k : Nat} (h : s.ReadsPairAlike g b k) (flg : Word) :
    (s.mapUnread g).childrenLoaded b k flg = (s.childrenLoaded b k flg).mapUnread g := by
  unfold State.childrenLoaded
  rw [h.1, h.2]
  rfl

theorem parentLoad_mapUnread (h : s.ReadsPairAlike g s.parentSource (2 * s.drv.node.toNat)) :
    parentLoad (s.mapUnread g) = Res.mapNext (State.mapUnread g) (parentLoad s) := by
  unfold parentLoad
  rw [apply_ite (Res.mapNext _), Res.mapNext_next, ← State.childrenLoaded_mapUnread h]
  rfl

theorem rootLoad_mapUnread (h : s.ReadsPairAlike g s.rootSource 0) :
    rootLoad (s.mapUnread g) = Res.mapNext (State.mapUnread g) (rootLoad s) := by
  unfold rootLoad
  rw [apply_ite (Res.mapNext _), Res.mapNext_next, ← State.childrenLoaded_mapUnread h]
  rfl

/-! ### A turn of a lane -/

theorem fsmStep_mapUnread (h : s.ReadsChildrenAlike g) :
    fsmStep (s.mapUnread g) = Res.mapNext (State.mapUnread g) (fsmStep s) := by
  unfold fsmStep
  rw [State.mapUnread_drv]
  cases hp : s.drv.phase with
  | idle => rfl
  | leaf =>
    cases s.drv.sub with
    | load => exact leafLoad_mapUnread g s
    | run => exact runStep_mapUnread g s
    | store => exact leafStore_mapUnread g s
  | parent =>
    cases s.drv.sub with
    | load => exact parentLoad_mapUnread (h.parent hp)
    | run => exact runStep_mapUnread g s
    | store => exact parentStore_mapUnread g s
  | root =>
    cases s.drv.sub with
    | load => exact rootLoad_mapUnread (h.root hp)
    | run => exact runStep_mapUnread g s
    | store => rfl

/-- A turn of a lane does the same after the change, if the children a lane with a task may load read the same. -/
theorem laneStep_mapUnread (h : s.team.waiting = false → s.ReadsChildrenAlike g) (pick : Nat) :
    laneStep pick (s.mapUnread g) = Res.mapNext (State.mapUnread g) (laneStep pick s) := by
  unfold laneStep
  rw [State.mapUnread_team, State.mapUnread_drv]
  split
  · rw [State.takeTask_mapUnread, Res.mapNext_next]
  · next hwork =>
    refine fsmStep_mapUnread ⟨fun hp => ?_, fun hp => ?_⟩
    · exact (h (by simpa [hp] using hwork)).parent hp
    · exact (h (by simpa [hp] using hwork)).root hp

end Sys2Proof.Machine
end

section
/-! SUPPORT. In a state of the invariant the two children a lane loads have been written (43_chunk_merkle.md R152), so
the lane reads no free value; and the statements of 00_scope.md about the invariant. -/

namespace Sys2Proof.Machine

/-! ### The slots a LOAD reads have been written -/

/-- The bank counts modulo 2 (20_memory.md R52), and fewer slots have been written where more have. -/
theorem State.Written.mono {s : State} {b c m n : Nat} (h : s.Written b m) (hb : c % 2 = b % 2) (hn : n ≤ m) :
    s.Written c n := by
  have hbank : s.bank c = s.bank b := by unfold State.bank; rw [hb]
  intro k hk
  rw [hbank]
  exact h k (by omega)

/-- A slot that has been written holds no free value. -/
theorem State.Written.scrRead_mapUnread {s : State} {b n k : Nat} (h : s.Written b n) (hk : k < n) (g : UnreadMap) :
    (s.mapUnread g).scrRead b k = s.scrRead b k := by
  obtain ⟨cv, hcv⟩ := Option.isSome_iff_exists.mp (h k hk)
  have hcv' : ((s.mapUnread g).bank b).find k = some cv := hcv
  rw [State.scrRead, State.scrRead, hcv, hcv', Option.getD_some, Option.getD_some]

theorem State.Written.readsPairAlike {s : State} {b k : Nat} (h : s.Written b (k + 2)) (g : UnreadMap) :
    s.ReadsPairAlike g b k :=
  ⟨h.scrRead_mapUnread (by omega) g, h.scrRead_mapUnread (by omega) g⟩

/-- Counting a level's 6-bit register down, where the level is not 0. -/
theorem toNat_sub_one_of_pos {x : BitVec 6} (h : 1 ≤ x.toNat) : (x - 1).toNat = x.toNat - 1 :=
  BitVec.toNat_sub_of_le h

/-- PARENT LOAD reads the level below, which has been written whole. -/
theorem State.Inv.parentSource_written {s : State} (h : s.Inv) (hp : s.drv.phase = .parent)
    (hw : s.team.waiting = false) : s.Written s.parentSource (2 * s.drv.node.toNat + 2) := by
  obtain ⟨hlvl, -, hwritten⟩ := h.driver.parent hp
  have hnode : s.drv.node.toNat < s.levelSize := by
    simpa [Seat.task, State.seat, State.levelTasks, hp] using h.task_lt (by simp [hp]) hw
  refine hwritten.mono ?_ (by omega)
  rw [State.parentSource, toNat_sub_one_of_pos hlvl, Nat.mod_mod]

/-- ROOT LOAD reads the last level, which has been written whole. -/
theorem State.Inv.rootSource_written {s : State} (h : s.Inv) (hp : s.drv.phase = .root) : s.Written s.rootSource 2 := by
  obtain ⟨hlogn, -, -⟩ := h.driver.latched (by simp [hp])
  refine (h.driver.root hp).mono ?_ le_rfl
  rw [State.rootSource, toNat_sub_one_of_pos (by omega), Nat.mod_mod]

/-- In a state of the invariant a lane with a task reads no free value. -/
theorem State.Inv.readsChildrenAlike {s : State} (h : s.Inv) (hw : s.team.waiting = false) (g : UnreadMap) :
    s.ReadsChildrenAlike g where
  parent hp := (h.parentSource_written hp hw).readsPairAlike g
  root hp := (h.rootSource_written hp).readsPairAlike g

/-- Settles O53: the slots a LOAD reads have been written, and nothing else a turn reads depends on the reset count. -/
theorem freeScratchNeverRead : Obligations.FreeScratchNeverRead := by
  intro s t pick n hinv ht
  have h := laneStep_mapUnread (fun hw => hinv.readsChildrenAlike hw { resets := fun _ => n }) pick
  rw [ht] at h
  exact h

/-! ### The state at reset -/

/-- The invariant at reset: the memories are empty and the driver is idle, so that nothing is claimed of a run. -/
theorem State.resetWith_inv {c : BitVec 6} (hleast : 10 ≤ c.toNat) (hgreatest : c.toNat ≤ 54) (lanes : Nat) :
    (State.resetWith c lanes).Inv where
  storage := { capacity := ⟨hleast, hgreatest⟩, romFixed := rfl, inWf := rfl, inBelow := rfl, scr0Wf := rfl
               scr0Below := rfl, scr1Wf := rfl, scr1Below := rfl }
  status := { legal := List.mem_cons_self, busyIff := by simp [State.busy, State.resetWith], idleLoad := fun _ => rfl }
  driver := { latched := fun h => absurd rfl h, parent := nofun, root := nofun }
  team := { alone := fun h => absurd rfl h, shared := fun h => absurd rfl h }
  operand := fun h => absurd rfl h

theorem State.resetWith_lanes (c : BitVec 6) {lanes : Nat} (h : 1 ≤ lanes) : (State.resetWith c lanes).lanes = lanes := by
  simp [State.lanes, State.resetWith, Nat.sub_add_cancel h]

/-- Settles O50: `State.reset` is `State.resetWith` at the parameters Config names. -/
theorem invHoldsAtReset : Obligations.InvHoldsAtReset :=
  ⟨State.resetWith_inv (by decide) (by decide) _,
    fun c _ hleast hgreatest hlanes => ⟨State.resetWith_lanes c hlanes, State.resetWith_inv hleast hgreatest _⟩⟩

end Sys2Proof.Machine
end

section
/-! SUPPORT. What an event of each agent can leave, said once: a turn of a lane, a host request, a step. -/

namespace Sys2Proof

/-- The instruction is a host transaction (30_encoding.md R73). -/
def Instr.isHost : Instr → Bool
  | .init | .g .. | .perm | .final => false
  | _ => true

end Sys2Proof

namespace Sys2Proof.Machine

/-! ### A turn of a lane -/

/-- What a turn of a lane can leave while a run is in progress: a lane without a task takes one, or passes the turn when
all have been taken (R163); a lane with a task does its LOAD, RUN or STORE step (R156 to R162). -/
inductive State.LaneMove (s : State) : State → Prop
  | take (waits : s.team.waiting = true) (k : Nat) (inLevel : k < s.levelTasks) (isLeft : k ∉ s.team.taken) :
      s.LaneMove (s.take k)
  | pass (waits : s.team.waiting = true) (noneLeft : ∀ k < s.levelTasks, k ∈ s.team.taken) : s.LaneMove s.passTurn
  | uop (works : s.team.waiting = false) (sub : s.drv.sub = .run) (st m : Block) (cv : CVal) :
      s.LaneMove { s with lane := { s.lane with s := st, m := m, cv := cv } }.afterUop
  | leafLoad (works : s.team.waiting = false) (phase : s.drv.phase = .leaf) : s.LaneMove s.leafLoaded
  | leafStore (works : s.team.waiting = false) (phase : s.drv.phase = .leaf) (sub : s.drv.sub = .store)
      (slot : s.drv.ci.toNat < s.nMax) : s.LaneMove (s.scrWrite 0 s.drv.ci.toNat s.lane.cv).afterLeaf
  | parentLoad (works : s.team.waiting = false) (phase : s.drv.phase = .parent) :
      s.LaneMove (s.childrenLoaded s.parentSource (2 * s.drv.node.toNat) parentFlags)
  | parentStore (works : s.team.waiting = false) (phase : s.drv.phase = .parent) (sub : s.drv.sub = .store)
      (slot : s.drv.node.toNat < s.nMax) :
      s.LaneMove (s.scrWrite (s.drv.lvl.toNat % 2) s.drv.node.toNat s.lane.cv).afterParent
  | rootLoad (works : s.team.waiting = false) (phase : s.drv.phase = .root) :
      s.LaneMove (s.childrenLoaded s.rootSource 0 rootFlags)
  | exportDigest (works : s.team.waiting = false) (phase : s.drv.phase = .root) (sub : s.drv.sub = .store) :
      s.LaneMove { s.doutWriteAll (digestFromCv s.lane.cv) with
        status := statusDone
        drv := { s.drv with phase := .idle, sub := .load } }

theorem fsmStep_move {s t : State} (hp : s.drv.phase ≠ .idle) (hw : s.team.waiting = false) (h : fsmStep s = .next t) :
    s.LaneMove t := by
  rcases fsmStep_cases h with ⟨hidle, -⟩ | ⟨-, hsub, hrun⟩ | ⟨hph, -, hload⟩ | ⟨hph, hsub, hstore⟩ | ⟨hph, -, hload⟩ |
    ⟨hph, hsub, hstore⟩ | ⟨hph, -, hload⟩ | ⟨hph, hsub, hexp⟩
  · exact absurd hidle hp
  · obtain ⟨i, u, hd, hu, rfl⟩ := runStep_next hrun
    obtain ⟨st, m, cv, hexec⟩ := exec_uop hd s
    cases hexec.symm.trans hu
    exact .uop hw hsub st m cv
  · obtain ⟨-, rfl⟩ := leafLoad_next hload
    exact .leafLoad hw hph
  · obtain ⟨hslot, rfl⟩ := leafStore_next hstore
    exact .leafStore hw hph hsub hslot
  · obtain ⟨-, rfl⟩ := parentLoad_next hload
    exact .parentLoad hw hph
  · obtain ⟨hslot, rfl⟩ := parentStore_next hstore
    exact .parentStore hw hph hsub hslot
  · obtain ⟨-, rfl⟩ := rootLoad_next hload
    exact .rootLoad hw hph
  · cases hexp
    exact .exportDigest hw hph hsub

theorem takeTask_move {s : State} (hw : s.team.waiting = true) (pick : Nat) : s.LaneMove (s.takeTask pick) := by
  rcases takeTask_cases pick s with ⟨k, hk, heq⟩ | ⟨hnone, heq⟩ <;> rw [heq]
  · exact .take hw k (State.choose_some hk).1 (State.choose_some hk).2
  · exact .pass hw (State.choose_none hnone)

theorem laneStep_move {s t : State} {pick : Nat} (hp : s.drv.phase ≠ .idle) (h : laneStep pick s = .next t) :
    s.LaneMove t := by
  rcases laneStep_cases pick s with ⟨hw, -, heq⟩ | ⟨hw, heq⟩ <;> rw [heq] at h
  · cases h
    exact takeTask_move hw pick
  · exact fsmStep_move hp (hw.resolve_right hp) h

theorem laneStep_idle {s : State} (h : s.drv.phase = .idle) (pick : Nat) : laneStep pick s = .next s := by
  simp [laneStep, fsmStep, h]

/-- The turn of the lane whose turn it is, as one of the lane no place after it (R155). -/
theorem coreStep_eq_laneTurn (s : State) : coreStep s = laneTurn 0 0 s := by
  unfold laneTurn
  split
  · next hp => exact laneStep_idle hp 0
  · rfl

/-- A scheduled turn changes nothing while idle (R155), and is else a turn of the lane it names (R163). -/
theorem laneTurn_move {s t : State} {lane pick : Nat} (h : laneTurn lane pick s = .next t) :
    (s.drv.phase = .idle ∧ t = s) ∨ (s.drv.phase ≠ .idle ∧ (s.turnTo lane).LaneMove t) := by
  have hphase : (s.turnTo lane).drv.phase = s.drv.phase :=
    State.turnTo_induct (P := fun u => u.drv.phase = s.drv.phase) (fun u hu => (u.passTurn_phase).trans hu) lane rfl
  unfold laneTurn at h
  split at h
  · next hp => exact .inl ⟨hp, by cases h; rfl⟩
  · next hp => exact .inr ⟨hp, laneStep_move (by rwa [hphase]) h⟩

/-! ### A host request -/

/-- The fields of a host transaction word make the word up, where its reserved bit is 0 (30_encoding.md R73). -/
theorem hostWord_extract {htw : BitVec 40} (h : htw.extractLsb' 36 1 = 0) :
    hostWord (htw.extractLsb' 39 1) (htw.extractLsb' 37 2) (htw.extractLsb' 32 4) (htw.extractLsb' 0 32) = htw := by
  have hrsvd : htw.getLsbD 36 = false := by simpa using congrArg (BitVec.getLsbD · 0) h
  apply BitVec.eq_of_getLsbD_eq
  intro k hk
  rw [Laws.TableRow.hostWord_bits]
  simp only [BitVec.getLsbD_extractLsb']
  split_ifs with h1 h2 h3 h4
  · simp [h1]
  · simp [show 32 + (k - 32) = k by omega, show k - 32 < 4 by omega]
  · rw [show k = 36 by omega, hrsvd]
  · simp [show 37 + (k - 37) = k by omega, show k - 37 < 2 by omega]
  · simp [show k = 39 by omega]

/-- A host transaction word holds its DIR, its INDEX and its DATA32. -/
theorem hostWord_inj {dir dir' : BitVec 1} {space space' : BitVec 2} {index index' : BitVec 4} {data data' : BitVec 32}
    (h : hostWord dir space index data = hostWord dir' space' index' data') :
    dir = dir' ∧ index = index' ∧ data = data' := by
  have hbit : ∀ k, (hostWord dir space index data).getLsbD k = (hostWord dir' space' index' data').getLsbD k :=
    fun k => by rw [h]
  simp only [Laws.TableRow.hostWord_bits] at hbit
  refine ⟨?_, ?_, ?_⟩ <;> apply BitVec.eq_of_getLsbD_eq <;> intro k hk
  · simpa [show k = 0 by omega] using hbit 39
  · simpa [show ¬ 32 + k < 32 by omega, show 32 + k < 36 by omega] using hbit (32 + k)
  · simpa [hk] using hbit k

/-- The key of HASH is 0x80 with `DATA[0] = 1` (R74). -/
theorem decodeHostKey_hash {dir : BitVec 1} {space : BitVec 2} {index : BitVec 4} {word data : BitVec 32} {addr : Nat}
    (h : decodeHostKey dir space index word addr = .hash data) :
    dir = 1 ∧ space = 0 ∧ index = 0 ∧ word = data ∧ data.getLsbD 0 = true := by
  unfold decodeHostKey at h
  split at h <;> split at h
  case h_1.isTrue hspace hdir =>
    unfold decodeCsrWrite at h
    split at h
    case h_1 hindex =>
      split at h
      · next hbit => cases h; exact ⟨hdir, BitVec.eq_of_toNat_eq hspace, BitVec.eq_of_toNat_eq hindex, rfl, hbit⟩
      · cases h
    all_goals cases h
  case h_1.isFalse =>
    unfold decodeCsrRead at h
    split at h <;> cases h
  all_goals cases h

/-- A word that decodes to HASH is its code. -/
theorem decodeHost_hash {htw : BitVec 40} {addr : Nat} {data : BitVec 32} (h : decodeHost htw addr = .ok (.hash data)) :
    htw = hostWord 1 0 0 data ∧ data.getLsbD 0 = true := by
  unfold decodeHost at h
  split at h
  · next hkey =>
    obtain ⟨hdir, hspace, hindex, hword, hbit⟩ := decodeHostKey_hash (Except.ok.inj h)
    have hrsvd : htw.extractLsb' 36 1 = 0 := by
      have hne : htw.extractLsb' 36 1 ≠ 1 := fun h1 => by simp [hostKeyReasons, h1] at hkey
      generalize htw.extractLsb' 36 1 = b at hne
      revert b
      decide
    rw [← hostWord_extract hrsvd, hdir, hspace, hindex, hword]
    exact ⟨rfl, hbit⟩
  · cases h

/-- A request that reaches the HASH row is HASH: as a transaction, and as the CSR access of a physical bus (20_memory.md
R53). -/
theorem isHash_of_transaction {data : BitVec 32} (h : data.getLsbD 0 = true) (addr : Nat) :
    (HostRequest.transaction (hostWord 1 0 0 data) addr).isHash = true :=
  beq_iff_eq.mpr (Laws.TableRow.hash data h)

theorem isHash_of_csrAccess {write : Bool} {offset width : Nat} {word data : BitVec 32}
    (hgood : csrAccessReasons offset width = []) (h : csrAccessWord write offset word = hostWord 1 0 0 data)
    (hbit : data.getLsbD 0 = true) : (HostRequest.csrAccess write offset width word).isHash = true := by
  obtain ⟨hdir, hindex, rfl⟩ := hostWord_inj h
  have hwrite : write = true := by cases write <;> simp_all
  obtain ⟨halign, hwidth, hrange⟩ : offset % 4 = 0 ∧ width = 32 ∧ offset < 0x40 := by
    simpa [csrAccessReasons, and_assoc] using hgood
  have hoffset : offset = 0 := by
    have hzero : offset / 4 % 2 ^ 4 = 0 := congrArg BitVec.toNat hindex
    omega
  subst hwrite hoffset hwidth
  simpa [HostRequest.isHash] using hbit

/-- What a host request can leave: HASH runs its command; WR_IN writes a byte in range while not BUSY; every other one,
and every refused one, changes at most LEN and the port. -/
inductive State.HostMove (s : State) (r : HostRequest) : State → Prop
  | hash (isHash : r.isHash = true) : s.HostMove r (s.hashCommand.respond .ack)
  | wrIn (a : Nat) (v : Byte) (inRange : a < s.inBytes) (idle : s.busy = false) :
      s.HostMove r ((s.inWrite a v).respond .ack)
  | other (lo hi : Word) (port : Port) : s.HostMove r { s with lenLo := lo, lenHi := hi, port := port }

theorem decodeCsrRead_isHost (index : BitVec 4) (data : BitVec 32) : (decodeCsrRead index data).isHost = true := by
  unfold decodeCsrRead
  split <;> rfl

theorem decodeCsrWrite_isHost (index : BitVec 4) (data : BitVec 32) : (decodeCsrWrite index data).isHost = true := by
  unfold decodeCsrWrite
  split
  case h_1 => split <;> rfl
  all_goals rfl

/-- A key chooses a host transaction's row, never a uop (R73). -/
theorem decodeHostKey_isHost (dir : BitVec 1) (space : BitVec 2) (index : BitVec 4) (data : BitVec 32) (addr : Nat) :
    (decodeHostKey dir space index data addr).isHost = true := by
  unfold decodeHostKey
  split <;> split
  · exact decodeCsrWrite_isHost index data
  · exact decodeCsrRead_isHost index data
  all_goals rfl

theorem decodeHost_isHost {htw : BitVec 40} {addr : Nat} {i : Instr} (h : decodeHost htw addr = .ok i) :
    i.isHost = true := by
  unfold decodeHost at h
  split at h
  · cases h; exact decodeHostKey_isHost ..
  · cases h

theorem exec_hostMove {r : HostRequest} {s t : State} {i : Instr} (hhost : i.isHost = true)
    (hhash : ∀ data, i = .hash data → r.isHash = true) (h : exec i s = .next t) : s.HostMove r t := by
  cases i with
  | init | g | perm | final => cases hhost
  | hash data => cases h; exact .hash (hhash data rfl)
  | wrIn data addr =>
    change execWrIn data addr s = .next t at h
    unfold execWrIn State.inRange at h
    split_ifs at h with hr hb <;> cases h
    · exact .other _ _ _
    · exact .other _ _ _
    · exact .wrIn _ _ (by simpa using hr) (by simpa using hb)
  | rdIn data addr =>
    change execRdIn data addr s = .next t at h
    unfold execRdIn at h
    split at h <;> cases h <;> exact .other _ _ _
  | rdDout data addr =>
    change execRdDout data addr s = .next t at h
    unfold execRdDout at h
    split at h <;> cases h <;> exact .other _ _ _
  | wrDout data addr =>
    change execWrDout data addr s = .next t at h
    unfold execWrDout at h
    split at h <;> cases h <;> exact .other _ _ _
  | _ => cases h; exact .other _ _ _

theorem hostTransaction_move {r : HostRequest} {htw : BitVec 40} {addr : Nat} {s t : State}
    (hhash : ∀ data, htw = hostWord 1 0 0 data → data.getLsbD 0 = true → r.isHash = true)
    (h : hostTransaction htw addr s = .next t) : s.HostMove r t := by
  rcases hostTransaction_cases htw addr s with ⟨why, -, heq⟩ | ⟨i, hd, heq⟩ <;> rw [heq] at h
  · cases h; exact .other _ _ _
  · refine exec_hostMove (decodeHost_isHost hd) (fun data hi => ?_) h
    obtain ⟨hword, hbit⟩ := decodeHost_hash (hi ▸ hd)
    exact hhash data hword hbit

theorem hostStep_move {r : HostRequest} {s t : State} (h : hostStep r s = .next t) : s.HostMove r t := by
  cases r with
  | transaction htw addr =>
    exact hostTransaction_move (fun _ hword hbit => by rw [hword]; exact isHash_of_transaction hbit addr) h
  | csrAccess write offset width data =>
    change csrAccess write offset width data s = .next t at h
    unfold csrAccess at h
    split at h
    · next hgood => exact hostTransaction_move (fun _ hword hbit => isHash_of_csrAccess hgood hword hbit) h
    · cases h; exact .other _ _ _

/-! ### A step -/

/-- A step is one of a lane, of the host or a reset, at the state with the event taken off the inbox (20_memory.md
R61). -/
theorem step_agent_cases (s : State) :
    (∃ lane pick, s.nextTurn = some (lane, pick) ∧ step s = laneTurn lane pick (s.withInbox s.port.inbox.tail)) ∨
    (∃ r, s.port.inbox.head? = some (.host r) ∧ step s = hostStep r (s.withInbox s.port.inbox.tail)) ∨
    (s.port.inbox.head? = some .reset ∧ step s = .next (s.withInbox s.port.inbox.tail).resetEvent) := by
  rcases step_cases s with ⟨hi, hs⟩ | ⟨rest, hi, hs⟩ | ⟨lane, pick, rest, hi, hs⟩ | ⟨r, rest, hi, hs⟩ | ⟨rest, hi, hs⟩
  · have hsame : s.withInbox s.port.inbox.tail = s := by rw [hi, List.tail_nil, ← hi]; rfl
    exact .inl ⟨0, 0, by simp [State.nextTurn, hi], by rw [hsame, hs, coreStep_eq_laneTurn]⟩
  · exact .inl ⟨0, 0, by simp [State.nextTurn, hi], by rw [hs, coreStep_eq_laneTurn, hi, List.tail_cons]⟩
  · exact .inl ⟨lane, pick, by simp [State.nextTurn, hi], by rw [hs, hi, List.tail_cons]⟩
  · exact .inr (.inl ⟨r, by simp [hi], by rw [hs, hi, List.tail_cons]⟩)
  · exact .inr (.inr ⟨by simp [hi], by rw [hs, hi, List.tail_cons]⟩)

end Sys2Proof.Machine
end

section
/-! SUPPORT. The invariant of Safety.lean is kept by every step: while the lanes work on one level, when a level ends and
the next begins (43_chunk_merkle.md R152), and by every host request and reset. -/

namespace Sys2Proof.Machine

/-! ### The lanes of a level replaced -/

/-- The state with the lane whose turn it is at `p`, the other lanes at `parked`, and the tasks of the level counted
anew: what every turn inside a level changes but for the slots it stores. -/
def State.withLanes (s : State) (p : Seat) (parked : List Seat) (taken : List Nat) (stored : Nat) : State :=
  { s with
    lane := p.lane
    drv := s.drv.atSeat p
    team := { waiting := p.waiting, parked := parked, taken := taken, stored := stored } }

/-- Inside a level only the clauses on the lanes are at stake. -/
theorem State.Inv.withLanes {s : State} (h : s.Inv) (hp : s.drv.phase ≠ .idle) {p : Seat} {parked : List Seat}
    {taken : List Nat} {stored : Nat} (halone : parked = [] → (s.withLanes p parked taken stored).AloneInv)
    (hshared : parked ≠ [] → (s.withLanes p parked taken stored).SharedInv)
    (hoperand : ∀ q ∈ p :: parked, q.waiting = false → q.OperandInv s.drv.phase) :
    (s.withLanes p parked taken stored).Inv where
  storage := h.storage.congr rfl rfl rfl rfl rfl
  status := ⟨h.status.legal, h.status.busyIff, fun hi => absurd hi hp⟩
  driver := ⟨h.driver.latched, h.driver.parent, h.driver.root⟩
  team := ⟨fun _ => halone, fun _ => hshared⟩
  operand := fun _ => hoperand

/-- The turn stays where it is: of the operands only those of its lane are at stake. -/
theorem State.Inv.withSeat {s : State} (h : s.Inv) (hp : s.drv.phase ≠ .idle) {p : Seat} {taken : List Nat}
    {stored : Nat} (halone : s.team.parked = [] → (s.withLanes p s.team.parked taken stored).AloneInv)
    (hshared : s.team.parked ≠ [] → (s.withLanes p s.team.parked taken stored).SharedInv)
    (hoperand : p.waiting = false → p.OperandInv s.drv.phase) :
    (s.withLanes p s.team.parked taken stored).Inv :=
  h.withLanes hp halone hshared <| List.forall_mem_cons.mpr
    ⟨hoperand, fun q hm => h.operand hp q (List.mem_cons_of_mem _ hm)⟩

/-- How the tasks stand does not depend on the order of the lanes. -/
theorem State.SharedInv.withLanes {s : State} (h : s.SharedInv) {p : Seat} {parked : List Seat}
    (hwork : (s.withLanes p parked s.team.taken s.team.stored).working.Perm s.working) :
    (s.withLanes p parked s.team.taken s.team.stored).SharedInv where
  once := h.once
  inLevel := h.inLevel
  incomplete := h.incomplete
  workOnce := hwork.nodup_iff.mpr h.workOnce
  workTaken k hk := h.workTaken k (hwork.mem_iff.mp hk)
  counted := by rw [hwork.length_eq]; exact h.counted
  rest k hk hn := h.rest k hk fun hw => hn (hwork.mem_iff.mpr hw)

/-- A lane at LOAD has no operands yet. -/
theorem Seat.operandInv_of_load {p : Seat} (h : p.sub = .load) (phase : Phase) : p.OperandInv phase := by
  constructor <;> simp [h]

/-! ### The tasks worked on -/

/-- The tasks the other lanes work on. -/
def State.othersWorking (s : State) : List Nat :=
  (s.team.parked.filter fun p => !p.waiting).map (Seat.task s.drv.phase)

theorem State.working_of_waiting {s : State} (h : s.team.waiting = true) : s.working = s.othersWorking := by
  simp [State.working, State.seats, State.othersWorking, State.seat, h]

theorem State.working_of_task {s : State} (h : s.team.waiting = false) :
    s.working = s.seat.task s.drv.phase :: s.othersWorking := by
  simp [State.working, State.seats, State.othersWorking, State.seat, h]

theorem State.working_perm {s t : State} (hphase : t.drv.phase = s.drv.phase) (h : t.seats.Perm s.seats) :
    t.working.Perm s.working := by
  unfold State.working
  rw [hphase]
  exact (h.filter _).map _

/-! ### The turn passes -/

theorem State.Inv.passTurn {s : State} (h : s.Inv) (hp : s.drv.phase ≠ .idle) : s.passTurn.Inv := by
  cases hq : s.team.parked with
  | nil =>
    rw [show s.passTurn = s from State.turnTo_alone hq 1]
    exact h
  | cons p rest =>
    have hpass : s.passTurn = s.withLanes p (rest ++ [s.seat]) s.team.taken s.team.stored := by
      unfold State.passTurn
      rw [hq]
      rfl
    have hseats : s.passTurn.seats.Perm s.seats := by
      rw [State.passTurn_seats]
      exact List.perm_append_singleton _ _
    have hshared := h.team.shared hp (by simp [hq])
    have hwork := State.working_perm s.passTurn_phase hseats
    have hoperand := h.operand hp
    rw [hpass] at hwork hseats ⊢
    exact h.withLanes hp (by simp) (fun _ => hshared.withLanes hwork)
      fun q hm => hoperand q (hseats.mem_iff.mp hm)

theorem State.turnTo_inv {s : State} (h : s.Inv) (hp : s.drv.phase ≠ .idle) (n : Nat) :
    (s.turnTo n).Inv ∧ (s.turnTo n).drv.phase ≠ .idle :=
  State.turnTo_induct (P := fun u => u.Inv ∧ u.drv.phase ≠ .idle)
    (fun u hu => ⟨hu.1.passTurn hu.2, by rw [u.passTurn_phase]; exact hu.2⟩) n ⟨h, hp⟩

/-! ### A lane takes a task -/

/-- With one lane the lane always has a task. -/
theorem State.Inv.parked_of_waiting {s : State} (h : s.Inv) (hp : s.drv.phase ≠ .idle) (hw : s.team.waiting = true) :
    s.team.parked ≠ [] := fun hq => by
  simp [(h.team.alone hp hq).works] at hw

/-- A lane put at the first LOAD of task `k`, holding it. -/
def State.seatAtTask (s : State) (k : Nat) : Seat := (s.take k).seat

/-- Taking a task moves the position of the lane, and nothing of the run's. -/
theorem Driver.atTask_eq (d : Driver) (k : Nat) :
    d.atTask k = { d with sub := (d.atTask k).sub, ci := (d.atTask k).ci, bj := (d.atTask k).bj
                          node := (d.atTask k).node } := by
  unfold Driver.atTask
  split <;> rfl

theorem State.take_eq_withLanes (s : State) (k : Nat) :
    s.take k = s.withLanes (s.seatAtTask k) s.team.parked (k :: s.team.taken) s.team.stored :=
  congrArg (fun d => { s with drv := d, team := (s.take k).team }) (s.drv.atTask_eq k)

/-- At the first LOAD of a task of the level the lane's registers hold that task, without wrapping (R29). -/
theorem State.Inv.task_seatAtTask {s : State} (h : s.Inv) (hp : s.drv.phase ≠ .idle) {k : Nat} (hk : k < s.levelTasks) :
    (s.seatAtTask k).task s.drv.phase = k := by
  have hfit : k < 2 ^ 64 := hk.trans (State.levelTasks_le h.driver hp).2
  cases hd : s.drv.phase with
  | idle => exact absurd hd hp
  | root => simpa [State.levelTasks, hd, Seat.task, eq_comm] using hk
  | leaf | parent =>
    simpa [Seat.task, State.seatAtTask, State.take, State.seat, Driver.atTask, hd] using hfit

theorem State.sub_seatAtTask {s : State} (hp : s.drv.phase ≠ .idle) (k : Nat) : (s.seatAtTask k).sub = .load := by
  change (s.drv.atTask k).sub = .load
  unfold Driver.atTask
  split
  case h_4 hd => exact absurd hd hp
  all_goals rfl

/-- A task that was left joins the tasks taken and the tasks worked on. -/
theorem State.SharedInv.take {s : State} (h : s.SharedInv) (hw : s.team.waiting = true) {k : Nat}
    (hk : k < s.levelTasks) (hnew : k ∉ s.team.taken) (htask : (s.seatAtTask k).task s.drv.phase = k) :
    (s.withLanes (s.seatAtTask k) s.team.parked (k :: s.team.taken) s.team.stored).SharedInv := by
  have hwork : (s.withLanes (s.seatAtTask k) s.team.parked (k :: s.team.taken) s.team.stored).working =
      k :: s.working := by
    rw [State.working_of_waiting hw, State.working_of_task rfl]
    exact congrArg (· :: s.othersWorking) htask
  have hnotWorked : k ∉ s.working := fun hm => hnew (h.workTaken k hm)
  constructor
  case once => exact List.nodup_cons.mpr ⟨hnew, h.once⟩
  case inLevel => exact List.forall_mem_cons.mpr ⟨hk, h.inLevel⟩
  case incomplete => exact h.incomplete
  case workOnce => rw [hwork]; exact List.nodup_cons.mpr ⟨hnotWorked, h.workOnce⟩
  case workTaken =>
    rw [hwork]
    exact List.forall_mem_cons.mpr ⟨List.mem_cons_self, fun j hj => List.mem_cons_of_mem _ (h.workTaken j hj)⟩
  case counted =>
    have hcounted := h.counted
    rw [hwork]
    change (k :: s.team.taken).length = s.team.stored + (k :: s.working).length
    rw [List.length_cons, List.length_cons]
    omega
  case rest =>
    rw [hwork]
    intro j hj hn
    obtain ⟨hjk, hjw⟩ := not_or.mp (mt List.mem_cons.mpr hn)
    exact h.rest j ((List.mem_cons.mp hj).resolve_left hjk) hjw

theorem State.Inv.take {s : State} (h : s.Inv) (hp : s.drv.phase ≠ .idle) (hw : s.team.waiting = true) {k : Nat}
    (hk : k < s.levelTasks) (hnew : k ∉ s.team.taken) : (s.take k).Inv := by
  rw [State.take_eq_withLanes]
  exact h.withSeat hp (fun hq => absurd hq (h.parked_of_waiting hp hw))
    (fun hq => (h.team.shared hp hq).take hw hk hnew (h.task_seatAtTask hp hk))
    fun _ => Seat.operandInv_of_load (State.sub_seatAtTask hp k) _

/-! ### LOAD and RUN steps -/

/-- A lane that stays with its task keeps the invariant, if its operands are those of its task. -/
theorem State.Inv.stay {s : State} (h : s.Inv) (hp : s.drv.phase ≠ .idle) (hw : s.team.waiting = false) (lane : Lane)
    (sub : Sub) (bj : BitVec 4)
    (hoperand : { s.seat with lane := lane, sub := sub, bj := bj }.OperandInv s.drv.phase) :
    { s with lane := lane, drv := { s.drv with sub := sub, bj := bj } }.Inv := by
  have hwork : { s with lane := lane, drv := { s.drv with sub := sub, bj := bj } }.working = s.working :=
    (State.working_of_task (s := { s with lane := lane, drv := { s.drv with sub := sub, bj := bj } }) hw).trans
      (State.working_of_task hw).symm
  refine h.withSeat hp (p := { s.seat with lane := lane, sub := sub, bj := bj }) (fun hq => ?_)
    (fun hq => (h.team.shared hp hq).withLanes (List.Perm.of_eq hwork)) fun _ => hoperand
  have ha := h.team.alone hp hq
  exact ⟨ha.works, ha.inLevel, ha.before⟩

theorem State.Inv.loadOperands {s : State} (h : s.Inv) (hp : s.drv.phase ≠ .idle) (hw : s.team.waiting = false)
    (cv : CVal) (m : Block) {cnt : BitVec 64} {flg : Word}
    (hleaf : s.drv.phase = .leaf → cnt = s.drv.ci ∧ flg = leafFlags s.drv.bj.toNat)
    (hparent : s.drv.phase = .parent → cnt = 0 ∧ flg = parentFlags)
    (hroot : s.drv.phase = .root → cnt = 0 ∧ flg = rootFlags) : (s.loadOperands cv m cnt flg).Inv :=
  h.stay hp hw _ .run s.drv.bj
    { blen := fun _ => rfl, leaf := fun hph _ => hleaf hph, parent := fun hph _ => hparent hph
      root := fun hph _ => hroot hph, stored := nofun, lastBlock := nofun }

/-- The operands of the lane whose turn it is. -/
theorem State.Inv.seat_operand {s : State} (h : s.Inv) (hp : s.drv.phase ≠ .idle) (hw : s.team.waiting = false) :
    s.seat.OperandInv s.drv.phase := h.operand hp _ List.mem_cons_self hw

/-- A RUN step leaves CNT, BLEN and FLG alone; after `upc = 63` a chunk's lane goes to its next block or, at the last, to
STORE (R157). -/
theorem State.Inv.uop {s : State} (h : s.Inv) (hp : s.drv.phase ≠ .idle) (hw : s.team.waiting = false)
    (hsub : s.drv.sub = .run) (st m : Block) (cv : CVal) :
    { s with lane := { s.lane with s := st, m := m, cv := cv } }.afterUop.Inv := by
  obtain ⟨hblen, hleaf, hparent, hroot, -, -⟩ := h.seat_operand hp hw
  have hrun : s.seat.sub ≠ .load := by simp [State.seat, hsub]
  unfold State.afterUop
  split
  · next hlast =>
    unfold Driver.afterCompression
    split
    · exact h.stay hp hw _ .load _ (Seat.operandInv_of_load rfl _)
    · next hend =>
      refine h.stay hp hw _ .store s.drv.bj
        { blen := fun _ => hblen hrun, leaf := fun hph _ => hleaf hph hrun, parent := fun hph _ => hparent hph hrun
          root := fun hph _ => hroot hph hrun, stored := fun _ => hlast, lastBlock := fun hph _ => ?_ }
      have hbj : ¬ s.drv.bj.toNat < 15 := fun hlt => hend ⟨hph, hlt⟩
      have hlt := s.drv.bj.isLt
      exact BitVec.eq_of_toNat_eq (by change s.drv.bj.toNat = 15; omega)
  · exact h.stay hp hw _ s.drv.sub s.drv.bj
      { blen := hblen, leaf := hleaf, parent := hparent, root := hroot
        stored := fun hst => by simp [hsub] at hst, lastBlock := fun _ hst => by simp [hsub] at hst }

/-! ### A STORE step writes its slot -/

theorem State.scrWrite_eq (s : State) (b k : Nat) (cv : CVal) :
    s.scrWrite b k cv = { s with scr0 := (s.scrWrite b k cv).scr0, scr1 := (s.scrWrite b k cv).scr1 } := by
  unfold State.scrWrite
  split <;> rfl

/-- A slot that has been written stays written. -/
theorem State.find_scrWrite_isSome {s : State} {c i : Nat} (h : ((s.bank c).find i).isSome = true) (b k : Nat)
    (cv : CVal) : (((s.scrWrite b k cv).bank c).find i).isSome = true := by
  rw [State.bank_scrWrite]
  split
  · by_cases hik : i = k
    · rw [hik, Scratch.find_write_same]; rfl
    · rwa [Scratch.find_write_other _ _ _ _ hik]
  · exact h

@[simp] theorem State.scrWrite_levelBank (s : State) (b k : Nat) (cv : CVal) :
    (s.scrWrite b k cv).levelBank = s.levelBank := by
  simp [State.levelBank]

theorem State.Stored.scrWrite {s : State} {i : Nat} (h : s.Stored i) (b k : Nat) (cv : CVal) :
    (s.scrWrite b k cv).Stored i := by
  unfold State.Stored at h ⊢
  rw [State.scrWrite_drv, State.scrWrite_levelBank]
  exact h.imp_right fun hfind => State.find_scrWrite_isSome hfind b k cv

theorem State.stored_scrWrite_same {s : State} {b : Nat} (h : s.levelBank % 2 = b % 2) (k : Nat) (cv : CVal) :
    (s.scrWrite b k cv).Stored k := by
  refine .inr ?_
  rw [State.scrWrite_levelBank, State.bank_scrWrite, if_pos h, Scratch.find_write_same]
  rfl

theorem State.Inv.scrWrite {s : State} (h : s.Inv) (b : Nat) {k : Nat} (hk : k < s.nMax) (cv : CVal) :
    (s.scrWrite b k cv).Inv := by
  have hstorage := h.storage.store b k cv hk
  have hwritten := fun c n (hw : s.Written c n) => State.written_store hw b k cv
  have hstored := fun i (hi : s.Stored i) => hi.scrWrite b k cv
  rw [State.scrWrite_eq] at hstorage hwritten hstored ⊢
  exact
    { storage := hstorage
      status := ⟨h.status.legal, h.status.busyIff, h.status.idleLoad⟩
      driver :=
        { latched := h.driver.latched
          parent := fun hp => (h.driver.parent hp).imp_right (.imp_right (hwritten _ _))
          root := fun hp => hwritten _ _ (h.driver.root hp) }
      team :=
        { alone := fun hp hq =>
            have ha := h.team.alone hp hq
            ⟨ha.works, ha.inLevel, fun i hi => hstored i (ha.before i hi)⟩
          shared := fun hp hq =>
            have hs := h.team.shared hp hq
            ⟨hs.once, hs.inLevel, hs.incomplete, hs.workOnce, hs.workTaken, hs.counted,
              fun i hi hn => hstored i (hs.rest i hi hn)⟩ }
      operand := h.operand }

/-! ### After a STORE: the next task of the level -/

/-- With one lane the lane goes on to the next task of the level. -/
theorem State.Inv.nextTask {s : State} (h : s.Inv) (hp : s.drv.phase ≠ .idle) (hq : s.team.parked = [])
    (hstored : s.Stored (s.seat.task s.drv.phase)) (hmore : s.seat.task s.drv.phase + 1 < s.levelTasks) :
    { s with drv := s.drv.atTask (s.seat.task s.drv.phase + 1) }.Inv := by
  set k := s.seat.task s.drv.phase
  have ha := h.team.alone hp hq
  have hseat : { s with drv := s.drv.atTask (k + 1) } =
      s.withLanes (s.seatAtTask (k + 1)) s.team.parked s.team.taken s.team.stored := by
    rw [s.drv.atTask_eq]
    simp only [State.withLanes, State.seatAtTask, State.seat, State.take]
    rw [← ha.works]
    rfl
  rw [hseat]
  refine h.withSeat hp (fun _ => ⟨rfl, ?_, fun i hi => ?_⟩) (fun hne => absurd hq hne)
    fun _ => Seat.operandInv_of_load (State.sub_seatAtTask hp _) _
  · exact (h.task_seatAtTask hp hmore).trans_lt hmore
  · have hi' : i < k + 1 := hi.trans_eq (h.task_seatAtTask hp hmore)
    rcases Nat.lt_succ_iff_lt_or_eq.mp hi' with hlt | rfl
    · exact ha.before i hlt
    · exact hstored

/-- A task that has been stored leaves the tasks worked on. -/
theorem State.SharedInv.await {s : State} (h : s.SharedInv) (hw : s.team.waiting = false)
    (hstored : s.Stored (s.seat.task s.drv.phase)) (hmore : s.team.stored + 1 < s.levelTasks) :
    (s.withLanes { s.seat with sub := .load, waiting := true } s.team.parked s.team.taken
      (s.team.stored + 1)).SharedInv := by
  have hwork := State.working_of_task hw
  have hwork' : (s.withLanes { s.seat with sub := .load, waiting := true } s.team.parked s.team.taken
      (s.team.stored + 1)).working = s.othersWorking := State.working_of_waiting rfl
  constructor
  case once => exact h.once
  case inLevel => exact h.inLevel
  case incomplete => exact hmore
  case workOnce => rw [hwork']; exact (List.nodup_cons.mp (hwork ▸ h.workOnce)).2
  case workTaken =>
    rw [hwork']
    exact fun k hk => h.workTaken k (hwork ▸ List.mem_cons_of_mem _ hk)
  case counted =>
    have hcounted := h.counted
    rw [hwork, List.length_cons] at hcounted
    rw [hwork']
    change s.team.taken.length = s.team.stored + 1 + s.othersWorking.length
    omega
  case rest =>
    rw [hwork']
    intro k hk hn
    by_cases hself : k = s.seat.task s.drv.phase
    · exact hself ▸ hstored
    · exact h.rest k hk (hwork ▸ List.not_mem_cons_of_ne_of_not_mem hself hn)

/-- With more lanes the lane waits for its next task, while the level is not complete. -/
theorem State.Inv.awaitTask {s : State} (h : s.Inv) (hp : s.drv.phase ≠ .idle) (hw : s.team.waiting = false)
    (hq : s.team.parked ≠ []) (hstored : s.Stored (s.seat.task s.drv.phase))
    (hmore : s.team.stored + 1 < s.levelTasks) :
    { s with drv := { s.drv with sub := .load }
             team := { s.team with waiting := true, stored := s.team.stored + 1 } }.Inv :=
  h.withSeat hp (p := { s.seat with sub := .load, waiting := true }) (fun hnil => absurd hnil hq)
    (fun _ => (h.team.shared hp hq).await hw hstored hmore) nofun

/-! ### The barrier: a level is complete, the next one begins (R152) -/

/-- With one lane, the last task of the level completes it. -/
theorem State.Inv.allStored_alone {s : State} (h : s.Inv) (hp : s.drv.phase ≠ .idle) (hq : s.team.parked = [])
    (hstored : s.Stored (s.seat.task s.drv.phase)) (hlast : ¬ s.seat.task s.drv.phase + 1 < s.levelTasks) :
    ∀ k < s.levelTasks, s.Stored k := fun k hk => by
  rcases Nat.lt_or_ge k (s.seat.task s.drv.phase) with hlt | hge
  · exact (h.team.alone hp hq).before k hlt
  · exact (show k = s.seat.task s.drv.phase by omega) ▸ hstored

/-- With more lanes, the last STORE of the level completes it: every task has been taken, and no other lane has one. -/
theorem State.Inv.allStored_shared {s : State} (h : s.Inv) (hp : s.drv.phase ≠ .idle) (hw : s.team.waiting = false)
    (hq : s.team.parked ≠ []) (hstored : s.Stored (s.seat.task s.drv.phase))
    (hlast : s.levelTasks ≤ s.team.stored + 1) : ∀ k < s.levelTasks, s.Stored k := by
  have hs := h.team.shared hp hq
  have hwork := State.working_of_task hw
  have hcounted := hs.counted
  rw [hwork, List.length_cons] at hcounted
  have hle : s.team.taken.length ≤ s.levelTasks := by
    simpa using (hs.once.subperm (l₂ := List.range s.levelTasks)
      fun k hk => List.mem_range.mpr (hs.inLevel k hk)).length_le
  have hothers : s.othersWorking = [] := List.eq_nil_of_length_eq_zero (by omega)
  intro k hk
  by_cases hself : k = s.seat.task s.drv.phase
  · exact hself ▸ hstored
  · exact hs.rest k (taken_all hs.once hs.inLevel (by omega) k hk) (by simp [hwork, hothers, hself])

/-- The lanes at the start of a level: one lane has its task, more lanes all wait. -/
structure Team.AtStart (t : Team) : Prop where
  alone : t.parked = [] → t.waiting = false
  waits : t.parked ≠ [] → t.waiting = true ∧ ∀ p ∈ t.parked, p.waiting = true
  none : t.parked ≠ [] → t.taken = [] ∧ t.stored = 0

theorem Team.fresh_atStart (t : Team) : t.fresh.AtStart := by
  constructor <;> simp +contextual [Team.fresh]

/-- At the first task of a level the invariant asks only that the level the lanes read has been written whole. -/
theorem State.startLevel_inv {s : State} (hstorage : s.StorageInv) (hstatus : s.StatusInv) (hdriver : s.DriverInv)
    (hsub : s.drv.sub = .load) (htask : s.seat.task s.drv.phase = 0) (hsome : 0 < s.levelTasks)
    (hteam : s.team.AtStart) : s.Inv where
  storage := hstorage
  status := hstatus
  driver := hdriver
  team :=
    { alone := fun _ hq => ⟨hteam.alone hq, htask ▸ hsome, by simp [htask]⟩
      shared := fun _ hq => by
        obtain ⟨hw, hothers⟩ := hteam.waits hq
        obtain ⟨htaken, hstored⟩ := hteam.none hq
        have hwork : s.working = [] := by
          rw [State.working_of_waiting hw, State.othersWorking,
            List.filter_eq_nil_iff.mpr fun p hm => by simp [hothers p hm], List.map_nil]
        constructor <;> simp [htaken, hstored, hwork, hsome] }
  operand := fun hp p hm hw => by
    rcases List.mem_cons.mp hm with rfl | hm
    · exact Seat.operandInv_of_load hsub _
    · rw [(hteam.waits (List.ne_nil_of_mem hm)).2 p hm] at hw
      cases hw

/-- Where the driver goes when a STORE has written its slot keeps the invariant, if the first task of the next level
does once the whole level has been stored. -/
theorem State.Inv.afterStore {s : State} (h : s.Inv) (hp : s.drv.phase ≠ .idle) (hw : s.team.waiting = false)
    (hstored : s.Stored (s.seat.task s.drv.phase)) {next : Driver}
    (hnext : (∀ k < s.levelTasks, s.Stored k) →
      ∀ team : Team, team.AtStart → { s with drv := next, team := team }.Inv) :
    (s.afterStore (if s.seat.task s.drv.phase + 1 < s.levelTasks then s.drv.atTask (s.seat.task s.drv.phase + 1)
      else next) next).Inv := by
  rcases s.afterStore_cases (if s.seat.task s.drv.phase + 1 < s.levelTasks then
      s.drv.atTask (s.seat.task s.drv.phase + 1) else next) next with
    ⟨hq, heq⟩ | ⟨hq, hmore, heq⟩ | ⟨hq, hlast, heq⟩ <;> rw [heq]
  · split
    · next hmore => exact h.nextTask hp hq hstored hmore
    · next hlast => exact hnext (h.allStored_alone hp hq hstored hlast) s.team ⟨fun _ => hw, absurd hq, absurd hq⟩
  · exact h.awaitTask hp hw hq hstored hmore
  · exact hnext (h.allStored_shared hp hw hq hstored hlast) _ (Team.fresh_atStart _)

end Sys2Proof.Machine
end

section
/-! SUPPORT. The ends of the levels of a run, and what each agent's event leaves of the invariant. -/

namespace Sys2Proof.Machine

/-! ### The next level -/

theorem State.StatusInv.ofBusy {s : State} {w : Word} (hstatus : s.status = w) (hlegal : w ∈ legalStatus)
    (hbusy : w.getLsbD 0 = true) (hp : s.drv.phase ≠ .idle) : s.StatusInv := by
  subst hstatus
  exact ⟨hlegal, iff_of_true hbusy hp, fun hi => absurd hi hp⟩

theorem State.StatusInv.ofIdle {s : State} {w : Word} (hstatus : s.status = w) (hlegal : w ∈ legalStatus)
    (hbusy : w.getLsbD 0 = false) (hidle : s.drv.phase = .idle) (hload : s.drv.sub = .load) : s.StatusInv := by
  subst hstatus
  exact ⟨hlegal, iff_of_false (Bool.eq_false_iff.mp hbusy) (not_not_intro hidle), fun _ => hload⟩

theorem State.written_of_stored {s : State} {n : Nat} (hp : s.drv.phase ≠ .root) (h : ∀ k < n, s.Stored k) :
    s.Written s.levelBank n :=
  fun k hk => (h k hk).resolve_left hp

/-- After the last leaf the first parent level begins: it reads the leaf level, `N` slots of bank 0 (R158). -/
theorem State.Inv.afterLeaves {s : State} (h : s.Inv) (hph : s.drv.phase = .leaf) (hall : ∀ k < s.levelTasks, s.Stored k)
    {team : Team} (hteam : team.AtStart) : { s with drv := s.drv.afterLeaves, team := team }.Inv := by
  have hp : s.drv.phase ≠ .idle := by simp [hph]
  obtain ⟨hlogn, hcap, hnreg⟩ := h.driver.latched hp
  have hlvl : { s with drv := s.drv.afterLeaves, team := team }.drv.lvl.toNat = 1 := rfl
  have hsize := State.levelSize_eq { s with drv := s.drv.afterLeaves, team := team } _ hnreg (hlvl ▸ by omega)
  rw [hlvl] at hsize
  have hwritten : s.Written 0 (2 * 2 ^ (s.drv.logn.toNat - 1)) := by
    have hw := State.written_of_stored (by simp [hph]) hall
    rw [← pow_succ', Nat.sub_add_cancel (by omega), ← hnreg]
    simpa [State.levelBank, State.levelTasks, hph] using hw
  refine State.startLevel_inv (h.storage.congr rfl rfl rfl rfl rfl)
    (.ofBusy rfl h.status.legal (h.status.busyIff.mpr hp) nofun) ⟨?_, ?_, nofun⟩ rfl rfl ?_ hteam
  · exact fun _ => ⟨hlogn, hcap, hnreg⟩
  · intro _
    rw [hlvl, hsize]
    exact ⟨le_rfl, by change 1 < s.drv.logn.toNat; omega, hwritten⟩
  · exact (Nat.two_pow_pos _).trans_eq hsize.symm

/-- After the last node of a level the next level begins, or the root: it reads the level just stored (R160). -/
theorem State.Inv.afterLevel {s : State} (h : s.Inv) (hph : s.drv.phase = .parent)
    (hall : ∀ k < s.levelTasks, s.Stored k) {team : Team} (hteam : team.AtStart) :
    { s with drv := s.drv.afterLevel, team := team }.Inv := by
  have hp : s.drv.phase ≠ .idle := by simp [hph]
  obtain ⟨hlogn, hcap, hnreg⟩ := h.driver.latched hp
  obtain ⟨hpos, hlt, -⟩ := h.driver.parent hph
  have hsize := s.levelSize_eq _ hnreg (by omega)
  have hwritten : s.Written s.drv.lvl.toNat (2 ^ (s.drv.logn.toNat - s.drv.lvl.toNat)) := by
    have hw := State.written_of_stored (by simp [hph]) hall
    simpa [State.levelBank, State.levelTasks, hph, hsize] using hw
  unfold Driver.afterLevel
  split
  · next hmore =>
    set t := { s with drv := { s.drv with lvl := s.drv.lvl + 1, node := 0, sub := .load }, team := team } with ht
    have hlvl : t.drv.lvl.toNat = s.drv.lvl.toNat + 1 := by
      have := s.drv.logn.isLt
      exact BitVec.toNat_add_of_lt (by change s.drv.lvl.toNat + 1 < 2 ^ 6; omega)
    have htsize := t.levelSize_eq _ hnreg (hlvl ▸ by omega)
    refine State.startLevel_inv (h.storage.congr rfl rfl rfl rfl rfl)
      (.ofBusy rfl h.status.legal (h.status.busyIff.mpr hp) hp)
      ⟨fun _ => ⟨hlogn, hcap, hnreg⟩, fun _ => ⟨by omega, hlvl ▸ hmore, ?_⟩, ?_⟩ rfl ?_ ?_ hteam
    · rw [htsize, hlvl, Nat.add_sub_cancel, ← pow_succ',
        show s.drv.logn.toNat - (s.drv.lvl.toNat + 1) + 1 = s.drv.logn.toNat - s.drv.lvl.toNat by omega]
      exact hwritten
    · exact fun hroot => by simp [ht, hph] at hroot
    · simp [ht, State.seat, Seat.task, hph]
    · have htasks : t.levelTasks = t.levelSize := by simp [State.levelTasks, ht, hph]
      rw [htasks, htsize]
      exact Nat.two_pow_pos _
  · next hlast =>
    have hlvl : s.drv.lvl.toNat = s.drv.logn.toNat - 1 := by omega
    rw [hlvl, Nat.sub_sub_self (by omega)] at hwritten
    exact State.startLevel_inv (h.storage.congr rfl rfl rfl rfl rfl)
      (.ofBusy rfl h.status.legal (h.status.busyIff.mpr hp) nofun)
      ⟨fun _ => ⟨hlogn, hcap, hnreg⟩, nofun, fun _ => hwritten⟩ rfl rfl Nat.one_pos hteam

/-! ### STORE steps -/

/-- With one lane the next chunk is the next task (R158). -/
theorem Driver.afterLeafStore_eq {d : Driver} (hph : d.phase = .leaf) (hbj : d.bj = 0) :
    d.afterLeafStore =
      if d.ci.toNat + 1 < d.nreg.toNat then d.atTask (d.ci.toNat + 1) else d.afterLeaves := by
  unfold Driver.afterLeafStore Driver.atTask
  simp [hph, ← hbj, BitVec.ofNat_add]

/-- With one lane the next node is the next task (R160). -/
theorem Driver.afterParentStore_eq {d : Driver} (hph : d.phase = .parent) :
    d.afterParentStore =
      if d.node.toNat + 1 < d.nreg.toNat >>> d.lvl.toNat then d.atTask (d.node.toNat + 1) else d.afterLevel := by
  unfold Driver.afterParentStore Driver.atTask
  simp [hph, BitVec.ofNat_add]

/-- Where the driver goes after a STORE does not depend on SUB: it goes there as from LOAD, where the invariant asks for
no operands. -/
theorem State.Inv.afterLeaf {s : State} (h : s.Inv) (hph : s.drv.phase = .leaf) (hw : s.team.waiting = false)
    (hstored : s.Stored s.drv.ci.toNat) : s.afterLeaf.Inv := by
  have hp : s.drv.phase ≠ .idle := by simp [hph]
  set u := { s with drv := { s.drv with sub := .load, bj := 0 } } with hu
  have hinv : u.Inv := h.stay hp hw s.lane .load 0 (Seat.operandInv_of_load rfl _)
  have htask : u.seat.task u.drv.phase = s.drv.ci.toNat := by simp [hu, State.seat, Seat.task, hph]
  have htasks : u.levelTasks = s.drv.nreg.toNat := by simp [hu, State.levelTasks, hph]
  have hafter := hinv.afterStore hp hw (htask ▸ hstored) fun hall _ hteam => hinv.afterLeaves hph hall hteam
  rw [htask, htasks] at hafter
  change (u.afterStore u.drv.afterLeafStore u.drv.afterLeaves).Inv
  rw [Driver.afterLeafStore_eq (d := u.drv) hph rfl]
  exact hafter

theorem State.Inv.afterParent {s : State} (h : s.Inv) (hph : s.drv.phase = .parent) (hw : s.team.waiting = false)
    (hstored : s.Stored s.drv.node.toNat) : s.afterParent.Inv := by
  have hp : s.drv.phase ≠ .idle := by simp [hph]
  have htask : s.seat.task s.drv.phase = s.drv.node.toNat := by simp [State.seat, Seat.task, hph]
  have htasks : s.levelTasks = s.drv.nreg.toNat >>> s.drv.lvl.toNat := by simp [State.levelTasks, State.levelSize, hph]
  have hafter := h.afterStore hp hw (htask ▸ hstored) fun hall _ hteam => h.afterLevel hph hall hteam
  rw [htask, htasks, ← Driver.afterParentStore_eq hph] at hafter
  exact hafter

/-! ### A turn of a lane -/

/-- In IDLE the invariant asks nothing of the lanes. -/
theorem State.idle_inv {s : State} (hstorage : s.StorageInv) (hstatus : s.StatusInv) (hidle : s.drv.phase = .idle) :
    s.Inv where
  storage := hstorage
  status := hstatus
  driver := by constructor <;> simp [hidle]
  team := by constructor <;> simp [hidle]
  operand := fun hp => absurd hidle hp

theorem State.LaneMove.inv {s t : State} (hmove : s.LaneMove t) (h : s.Inv) (hp : s.drv.phase ≠ .idle) : t.Inv := by
  cases hmove with
  | take hw k hk hnew => exact h.take hp hw hk hnew
  | pass => exact h.passTurn hp
  | uop hw hsub => exact h.uop hp hw hsub _ _ _
  | leafLoad hw hph =>
    exact h.loadOperands hp hw _ _ (fun _ => ⟨rfl, rfl⟩) (by simp [hph]) (by simp [hph])
  | parentLoad hw hph =>
    exact h.loadOperands hp hw _ _ (by simp [hph]) (fun _ => ⟨rfl, rfl⟩) (by simp [hph])
  | rootLoad hw hph =>
    exact h.loadOperands hp hw _ _ (by simp [hph]) (by simp [hph]) (fun _ => ⟨rfl, rfl⟩)
  | leafStore hw hph hsub hslot =>
    refine (h.scrWrite 0 hslot s.lane.cv).afterLeaf (by simpa using hph) (by simpa using hw) ?_
    rw [State.scrWrite_drv]
    exact State.stored_scrWrite_same (by simp [State.levelBank, hph]) _ _
  | parentStore hw hph hsub hslot =>
    refine (h.scrWrite _ hslot s.lane.cv).afterParent (by simpa using hph) (by simpa using hw) ?_
    rw [State.scrWrite_drv]
    exact State.stored_scrWrite_same (by simp [State.levelBank, hph]) _ _
  | exportDigest =>
    exact State.idle_inv (h.storage.congr rfl rfl rfl rfl rfl)
      (.ofIdle (w := statusDone) rfl (by decide) (by decide) rfl rfl) rfl

theorem laneTurn_inv {s t : State} {lane pick : Nat} (h : s.Inv) (ht : laneTurn lane pick s = .next t) : t.Inv := by
  rcases laneTurn_move ht with ⟨-, rfl⟩ | ⟨hp, hmove⟩
  · exact h
  · obtain ⟨hinv, hphase⟩ := State.turnTo_inv h hp lane
    exact hmove.inv hinv hphase

/-! ### The host and the reset -/

/-- A valid length is `2^n` chunks with `n` at least 10 (R189). -/
theorem chunkCount_of_validLength {len : BitVec 64} (h : validLength len = true) :
    chunkCount len = 2 ^ Nat.log2 (chunkCount len) ∧ 10 ≤ Nat.log2 (chunkCount len) := by
  simp only [validLength, Bool.and_eq_true, decide_eq_true_eq] at h
  obtain ⟨⟨-, hpow⟩, hmin⟩ := h
  refine ⟨hpow, (Nat.pow_le_pow_iff_right (by norm_num : 1 < 2)).mp ?_⟩
  rw [← hpow]
  exact hmin

/-- A failing HASH changes STATUS alone (R204), in IDLE. -/
theorem State.Inv.raiseError {s : State} (h : s.Inv) (hidle : s.drv.phase = .idle) {code : BitVec 2}
    (hlegal : statusError code ∈ legalStatus) (hbusy : (statusError code).getLsbD 0 = false) :
    (s.raiseError code).Inv :=
  State.idle_inv (h.storage.congr rfl rfl rfl rfl rfl)
    (.ofIdle rfl hlegal hbusy hidle (h.status.idleLoad hidle)) hidle

/-- An accepted HASH starts the leaf level of a run that fits the capacity (R171). -/
theorem State.Inv.startRun {s : State} (h : s.Inv) (hvalid : validLength s.len = true)
    (hfits : chunkCount s.len ≤ s.nMax) : (s.startRun (chunkCount s.len)).Inv := by
  obtain ⟨hpow, hn⟩ := chunkCount_of_validLength hvalid
  set n := Nat.log2 (chunkCount s.len)
  have hcap : n ≤ s.log2NMax.toNat := (Nat.pow_le_pow_iff_right (by norm_num : 1 < 2)).mp (hpow ▸ hfits)
  have hgreatest : s.log2NMax.toNat ≤ 54 := h.storage.capacity.2
  have hlogn : (s.startRun (chunkCount s.len)).drv.logn.toNat = n := Nat.mod_eq_of_lt (by omega)
  have hnreg : (s.startRun (chunkCount s.len)).drv.nreg.toNat = 2 ^ n := by
    rw [← hpow]
    exact Nat.mod_eq_of_lt (hpow ▸ Nat.pow_lt_pow_right (by norm_num) (by omega))
  refine State.startLevel_inv (h.storage.congr rfl rfl rfl rfl rfl)
    (.ofBusy (w := statusBusy) rfl (by decide) (by decide) nofun)
    ⟨fun _ => ⟨hlogn ▸ hn, hlogn ▸ hcap, by rw [hlogn, hnreg]⟩, nofun, nofun⟩ rfl rfl ?_ (Team.fresh_atStart _)
  exact (Nat.two_pow_pos n).trans_eq hnreg.symm

theorem State.Inv.hashCommand {s : State} (h : s.Inv) : s.hashCommand.Inv := by
  rcases hashCommand_cases s with ⟨-, heq⟩ | ⟨hb, -, heq⟩ | ⟨hb, -, -, heq⟩ | ⟨-, hvalid, hfits, heq⟩ <;> rw [heq]
  · exact h
  · exact h.raiseError (h.idle_of_not_busy hb) (by decide) (by decide)
  · exact h.raiseError (h.idle_of_not_busy hb) (by decide) (by decide)
  · exact h.startRun hvalid hfits

/-- The invariant depends on nothing of the port. -/
theorem State.Inv.respond {s : State} (h : s.Inv) (r : Reply) : (s.respond r).Inv :=
  h.congr rfl rfl rfl rfl rfl rfl rfl rfl rfl

theorem State.Inv.inWrite {s : State} (h : s.Inv) {a : Nat} (ha : a < s.inBytes) (hb : s.busy = false) (v : Byte) :
    (s.inWrite a v).Inv :=
  have hs := h.storage
  State.idle_inv ⟨hs.capacity, hs.romFixed, Memory.write_wf _ _ _ hs.inWf, Memory.write_below _ _ _ _ ha hs.inBelow,
    hs.scr0Wf, hs.scr0Below, hs.scr1Wf, hs.scr1Below⟩ ⟨h.status.legal, h.status.busyIff, h.status.idleLoad⟩
    (h.idle_of_not_busy hb)

theorem State.HostMove.inv {s t : State} {r : HostRequest} (hmove : s.HostMove r t) (h : s.Inv) : t.Inv := by
  cases hmove with
  | hash => exact h.hashCommand.respond .ack
  | wrIn a v ha hb => exact (h.inWrite ha hb v).respond .ack
  | other => exact h.congr rfl rfl rfl rfl rfl rfl rfl rfl rfl

/-- A reset leaves the capacity, the ROM and IN, and empties the scratch (70_reset_and_hazards.md R220). -/
theorem State.Inv.resetEvent {s : State} (h : s.Inv) : s.resetEvent.Inv :=
  have hs := h.storage
  State.idle_inv ⟨hs.capacity, hs.romFixed, hs.inWf, hs.inBelow, rfl, rfl, rfl, rfl⟩
    (.ofIdle (w := 0) rfl (by decide) (by decide) rfl rfl) rfl

/-- Settles O51: an event of the host, a lane or the reset finds the invariant and keeps it. -/
theorem invKeptByEveryStep : Obligations.InvKeptByEveryStep := by
  intro s t h hstep
  have hinbox : (s.withInbox s.port.inbox.tail).Inv := h.congr rfl rfl rfl rfl rfl rfl rfl rfl rfl
  rcases step_agent_cases s with ⟨lane, pick, -, heq⟩ | ⟨r, -, heq⟩ | ⟨-, heq⟩ <;> rw [heq] at hstep
  · exact laneTurn_inv hinbox hstep
  · exact (hostStep_move hstep).inv hinbox
  · cases hstep
    exact hinbox.resetEvent

end Sys2Proof.Machine
end

section
/-! SUPPORT. What no step changes, what changes STATUS, and that a lane neither reads nor changes another lane's
registers: the statements of 10_state.md that follow from what a turn, a request and a reset can leave. -/

namespace Sys2Proof.Machine

/-! ### The state at reset -/

/-- Settles O59: `State.resetWith` is written out, and an idle core waits. -/
theorem resetValues : Obligations.ResetValues := by
  refine ⟨rfl, fun c lanes hlanes => ⟨rfl, rfl, rfl, rfl, rfl, rfl, rfl, rfl, State.resetWith_lanes c hlanes, ?_,
    ?_⟩⟩
  · intro p hp
    obtain rfl := List.eq_of_mem_replicate hp
    exact ⟨rfl, rfl⟩
  · exact laneStep_idle (s := State.resetWith c lanes) rfl 0

/-! ### The configuration (10_state.md R40) -/

/-- LOG2_NMAX, the number of lanes and the ROM of `t` are those of `s`. -/
def State.SameConfig (s t : State) : Prop := t.log2NMax = s.log2NMax ∧ t.lanes = s.lanes ∧ t.rom = s.rom

@[simp] theorem State.afterStore_lanes (s : State) (alone next : Driver) :
    (s.afterStore alone next).lanes = s.lanes := by
  rcases s.afterStore_cases alone next with ⟨-, heq⟩ | ⟨-, -, heq⟩ | ⟨-, -, heq⟩ <;> rw [heq] <;> simp [State.lanes]

theorem drawnSeats_length (reset k : Nat) (seats : List Seat) : (drawnSeats reset k seats).length = seats.length := by
  induction seats generalizing k with
  | nil => rfl
  | cons p rest ih => rw [drawnSeats, List.length_cons, List.length_cons, ih]

@[simp] theorem State.resetEvent_lanes (s : State) : s.resetEvent.lanes = s.lanes := by
  simp [State.lanes, drawnSeats_length]

@[simp] theorem State.scrWrite_lanes (s : State) (b k : Nat) (cv : CVal) : (s.scrWrite b k cv).lanes = s.lanes := by
  simp [State.lanes]

theorem State.LaneMove.sameConfig {s t : State} (h : s.LaneMove t) : s.SameConfig t := by
  cases h with
  | take => exact ⟨rfl, rfl, rfl⟩
  | pass => exact ⟨s.passTurn_log2NMax, s.passTurn_lanes, s.passTurn_rom⟩
  | uop => simp [State.SameConfig, State.lanes]
  | leafLoad | parentLoad | rootLoad | exportDigest => exact ⟨rfl, rfl, rfl⟩
  | leafStore => exact ⟨by simp, (State.afterStore_lanes _ _ _).trans (State.scrWrite_lanes ..), by simp⟩
  | parentStore => exact ⟨by simp, (State.afterStore_lanes _ _ _).trans (State.scrWrite_lanes ..), by simp⟩

theorem State.HostMove.sameConfig {s t : State} {r : HostRequest} (h : s.HostMove r t) : s.SameConfig t := by
  cases h with
  | hash =>
    rcases hashCommand_cases s with ⟨-, heq⟩ | ⟨-, -, heq⟩ | ⟨-, -, -, heq⟩ | ⟨-, -, -, heq⟩ <;> rw [heq] <;>
      simp [State.SameConfig, State.lanes]
  | wrIn | other => exact ⟨rfl, rfl, rfl⟩

/-- Settles O56: each event leaves the configuration alone. -/
theorem configurationIsFixed : Obligations.ConfigurationIsFixed := by
  intro s t hstep
  set u := s.withInbox s.port.inbox.tail
  rcases step_agent_cases s with ⟨lane, pick, -, heq⟩ | ⟨r, -, heq⟩ | ⟨-, heq⟩ <;> rw [heq] at hstep
  · rcases laneTurn_move hstep with ⟨-, rfl⟩ | ⟨-, hmove⟩
    · exact ⟨rfl, rfl, rfl⟩
    · obtain ⟨hmax, hlanes, hrom⟩ := hmove.sameConfig
      exact ⟨hmax.trans (u.turnTo_log2NMax lane), hlanes.trans (u.turnTo_lanes lane), hrom.trans (u.turnTo_rom lane)⟩
  · exact (hostStep_move hstep).sameConfig
  · cases hstep
    exact ⟨rfl, u.resetEvent_lanes, rfl⟩

/-! ### STATUS (10_state.md R32, 60_exceptions.md R206) -/

theorem State.LaneMove.status_changed {s t : State} (h : s.LaneMove t) (hne : t.status ≠ s.status) :
    t.status = statusDone ∧ s.drv.phase = .root ∧ s.drv.sub = .store ∧ s.team.waiting = false := by
  cases h with
  | exportDigest hw hph hsub => exact ⟨rfl, hph, hsub, hw⟩
  | take | leafLoad | parentLoad | rootLoad => exact absurd rfl hne
  | pass => exact absurd s.passTurn_status hne
  | uop | leafStore | parentStore => simp at hne

theorem State.HostMove.status_changed {s t : State} {r : HostRequest} (h : s.HostMove r t) (hne : t.status ≠ s.status) :
    (t.status = 0x1 ∨ t.status = 0x6 ∨ t.status = 0xA) ∧ s.busy = false ∧ r.isHash = true := by
  cases h with
  | hash hr =>
    rw [State.respond_status] at hne ⊢
    rcases hashCommand_cases s with ⟨-, heq⟩ | ⟨hb, -, heq⟩ | ⟨hb, -, -, heq⟩ | ⟨hb, -, -, heq⟩ <;> rw [heq] at hne ⊢
    · exact absurd rfl hne
    · exact ⟨.inr (.inl rfl), hb, hr⟩
    · exact ⟨.inr (.inr rfl), hb, hr⟩
    · exact ⟨.inl rfl, hb, hr⟩
  | wrIn | other => exact absurd rfl hne

theorem State.turnTo_mapUnread (g : UnreadMap) (n : Nat) (s : State) :
    (s.mapUnread g).turnTo n = (s.turnTo n).mapUnread g := by
  induction n generalizing s with
  | zero => rfl
  | succ n ih => rw [State.turnTo, State.turnTo, State.passTurn_mapUnread, ih]

theorem State.turnTo_withInbox (inbox : List Event) (n : Nat) (s : State) :
    (s.withInbox inbox).turnTo n = (s.turnTo n).withInbox inbox :=
  State.turnTo_mapUnread { port := fun p => { p with inbox := inbox } } n s

/-- Settles O49: EXPORT is the one turn of a lane, and HASH the one host request, that changes STATUS. -/
theorem statusChangesOnlyBy : Obligations.StatusChangesOnlyBy := by
  intro s t hstep hne
  rcases step_agent_cases s with ⟨lane, pick, hturn, heq⟩ | ⟨r, hr, heq⟩ | ⟨hreset, heq⟩ <;> rw [heq] at hstep
  · rcases laneTurn_move hstep with ⟨-, rfl⟩ | ⟨-, hmove⟩
    · exact absurd rfl hne
    · rw [State.turnTo_withInbox] at hmove
      obtain ⟨hdone, hexport⟩ := hmove.status_changed (by simpa using hne)
      exact .inr (.inl ⟨hdone, lane, pick, hturn, hexport⟩)
  · obtain ⟨hstatus, hbusy, hhash⟩ := (hostStep_move hstep).status_changed hne
    exact .inr (.inr ⟨hstatus, hbusy, r, hhash, hr⟩)
  · cases hstep
    exact .inl ⟨rfl, hreset⟩

/-! ### LEN and the host port (20_memory.md R61) -/

/-- Settles O47: LEN and the port are among what a turn does not read, and the scratch reads the same without them. -/
theorem coreIgnoresHostState : Obligations.CoreIgnoresHostState := by
  intro s pick lo hi port
  have h := laneStep_mapUnread (g := { lenLo := fun _ => lo, lenHi := fun _ => hi, port := fun _ => port }) (s := s)
    (fun _ => ⟨fun _ => ⟨rfl, rfl⟩, fun _ => ⟨rfl, rfl⟩⟩) pick
  refine h.trans ?_
  cases laneStep pick s <;> rfl

/-! ### The other lanes' registers (10_state.md R27) -/

/-- The other lanes at the positions they have, whether or not they wait. -/
def Team.positions (t : Team) : List Seat := t.parked.map fun p => { p with waiting := false }

theorem Team.fresh_positions (t : Team) : t.fresh.positions = t.positions := by
  simp [Team.positions, Team.fresh, Function.comp_def]

theorem State.afterStore_positions (s : State) (alone next : Driver) :
    (s.afterStore alone next).team.positions = s.team.positions := by
  rcases s.afterStore_cases alone next with ⟨-, heq⟩ | ⟨-, -, heq⟩ | ⟨-, -, heq⟩ <;> rw [heq]
  · rfl
  · exact s.team.fresh_positions

/-- Only a lane that finds no task left gives its turn away; any other turn leaves the other lanes where they are. -/
theorem State.LaneMove.positions_eq {s t : State} (h : s.LaneMove t)
    (htask : s.team.waiting = false ∨ ∃ k < s.levelTasks, k ∉ s.team.taken) : t.team.positions = s.team.positions := by
  cases h with
  | pass hw hnone =>
    rcases htask with hworks | ⟨k, hk, hleft⟩
    · simp [hw] at hworks
    · exact absurd (hnone k hk) hleft
  | uop => rw [State.afterUop_team]
  | leafStore | parentStore => exact (State.afterStore_positions _ _ _).trans (by rw [State.scrWrite_team])
  | take | leafLoad | parentLoad | rootLoad | exportDigest => rfl

section
variable (g : Lane → Lane) (s : State)

theorem Team.fresh_mapParked (t : Team) :
    Team.fresh { t with parked := t.parked.map fun p => { p with lane := g p.lane } } =
      { t.fresh with parked := t.fresh.parked.map fun p => { p with lane := g p.lane } } := by
  simp [Team.fresh, Function.comp_def]

theorem State.afterStore_mapParked (alone next : Driver) :
    (s.mapParked g).afterStore alone next = (s.afterStore alone next).mapParked g := by
  have hempty : (s.mapParked g).team.parked.isEmpty = s.team.parked.isEmpty := by simp [State.mapParked]
  unfold State.afterStore
  rw [hempty, apply_ite (State.mapParked · g), apply_ite (State.mapParked · g)]
  refine if_congr Iff.rfl rfl (if_congr Iff.rfl rfl ?_)
  exact congrArg (fun t => { s with drv := next, team := t }) (s.team.fresh_mapParked g)

theorem State.scrWrite_mapParked (b k : Nat) (cv : CVal) :
    (s.mapParked g).scrWrite b k cv = (s.scrWrite b k cv).mapParked g := by
  unfold State.scrWrite
  rw [apply_ite (State.mapParked · g)]
  rfl

theorem State.afterUop_mapParked : (s.mapParked g).afterUop = s.afterUop.mapParked g := by
  unfold State.afterUop
  rw [apply_ite (State.mapParked · g)]
  rfl

theorem leafLoad_mapParked : leafLoad (s.mapParked g) = Res.mapNext (State.mapParked · g) (leafLoad s) := by
  unfold leafLoad
  rw [apply_ite (Res.mapNext _)]
  rfl

theorem parentLoad_mapParked : parentLoad (s.mapParked g) = Res.mapNext (State.mapParked · g) (parentLoad s) := by
  unfold parentLoad
  rw [apply_ite (Res.mapNext _)]
  rfl

theorem rootLoad_mapParked : rootLoad (s.mapParked g) = Res.mapNext (State.mapParked · g) (rootLoad s) := by
  unfold rootLoad
  rw [apply_ite (Res.mapNext _)]
  rfl

theorem leafStore_mapParked : leafStore (s.mapParked g) = Res.mapNext (State.mapParked · g) (leafStore s) := by
  have hafter (u : State) : (u.mapParked g).afterLeaf = u.afterLeaf.mapParked g :=
    State.afterStore_mapParked g { u with drv := { u.drv with bj := 0 } } _ _
  unfold leafStore
  rw [apply_ite (Res.mapNext _), Res.mapNext_next, ← hafter, ← State.scrWrite_mapParked]
  rfl

theorem parentStore_mapParked : parentStore (s.mapParked g) = Res.mapNext (State.mapParked · g) (parentStore s) := by
  have hafter (u : State) : (u.mapParked g).afterParent = u.afterParent.mapParked g :=
    u.afterStore_mapParked g _ _
  unfold parentStore
  rw [apply_ite (Res.mapNext _), Res.mapNext_next, ← hafter, ← State.scrWrite_mapParked]
  rfl

theorem runStep_mapParked : runStep (s.mapParked g) = Res.mapNext (State.mapParked · g) (runStep s) := by
  have hfetch : (s.mapParked g).fetchUop = s.fetchUop := rfl
  unfold runStep
  rw [hfetch]
  cases h : decodeUop s.fetchUop with
  | error e => rfl
  | ok i =>
    have hexec : exec i (s.mapParked g) = Res.mapNext (State.mapParked · g) (exec i s) := by
      rcases decodeUop_cases h with rfl | rfl | rfl | rfl <;> rfl
    simp only [finishRun_eq_mapNext, hexec]
    exact Res.mapNext_comm (State.afterUop_mapParked g) _

/-- A lane with a task reads no other lane's registers. -/
theorem fsmStep_mapParked : fsmStep (s.mapParked g) = Res.mapNext (State.mapParked · g) (fsmStep s) := by
  have hdrv : (s.mapParked g).drv = s.drv := rfl
  unfold fsmStep
  rw [hdrv]
  cases s.drv.phase with
  | idle => rfl
  | leaf =>
    cases s.drv.sub with
    | load => exact leafLoad_mapParked g s
    | run => exact runStep_mapParked g s
    | store => exact leafStore_mapParked g s
  | parent =>
    cases s.drv.sub with
    | load => exact parentLoad_mapParked g s
    | run => exact runStep_mapParked g s
    | store => exact parentStore_mapParked g s
  | root =>
    cases s.drv.sub with
    | load => exact rootLoad_mapParked g s
    | run => exact runStep_mapParked g s
    | store => rfl

/-- A lane that waits takes a task by what the team has taken, whatever the other lanes hold. -/
theorem State.takeTask_mapParked {pick k : Nat} (h : s.choose pick = some k) :
    (s.mapParked g).takeTask pick = (s.takeTask pick).mapParked g := by
  have h' : (s.mapParked g).choose pick = some k := h
  unfold State.takeTask
  rw [h, h']
  rfl

theorem laneStep_mapParked {pick : Nat}
    (h : s.team.waiting = true → s.drv.phase ≠ .idle → (s.choose pick).isSome = true) :
    laneStep pick (s.mapParked g) = Res.mapNext (State.mapParked · g) (laneStep pick s) := by
  rcases laneStep_cases pick s with ⟨hw, hp, heq⟩ | ⟨hw, heq⟩ <;> rw [heq]
  · obtain ⟨k, hk⟩ := Option.isSome_iff_exists.mp (h hw hp)
    rw [Res.mapNext_next, ← State.takeTask_mapParked g s hk]
    exact if_pos ⟨hw, hp⟩
  · rw [← fsmStep_mapParked]
    exact if_neg fun hboth => hw.elim (fun hf => Bool.false_ne_true (hf.symm.trans hboth.1)) hboth.2

end

/-- Settles O35: the lane's own turn moves no other lane, and commutes with any change of their registers. -/
theorem lanesArePrivate : Obligations.LanesArePrivate := by
  intro s t pick g htask hstep
  refine ⟨?_, ?_⟩
  · by_cases hp : s.drv.phase = .idle
    · rw [laneStep_idle hp] at hstep
      cases hstep
      rfl
    · exact (laneStep_move hp hstep).positions_eq (htask.imp_right fun h => h.resolve_left hp)
  · rw [laneStep_mapParked g s, hstep, Res.mapNext_next]
    intro hw hp
    cases hc : s.choose pick with
    | some k => rfl
    | none =>
      obtain ⟨k, hk, hleft⟩ := (htask.resolve_left (by simp [hw])).resolve_left hp
      exact absurd (State.choose_none hc k hk) hleft

end Sys2Proof.Machine
end

section
/-! SUPPORT. What changes IN and DOUT, and what a CSR access of a physical bus is: the statements of 20_memory.md that
follow from what a turn, a request and a reset can leave. -/

namespace Sys2Proof.Machine

/-! ### CSR accesses (20_memory.md R53) -/

/-- An aligned 32-bit access inside the window is well formed. -/
theorem csrAccessReasons_aligned (index : BitVec 4) : csrAccessReasons (4 * index.toNat) 32 = [] := by
  have hlt : ¬ 0x40 ≤ 4 * index.toNat := by have := index.isLt; omega
  simp [csrAccessReasons, hlt]

theorem csrAccess_aligned (write : Bool) (index : BitVec 4) (data : Word) (s : State) :
    csrAccess write (4 * index.toNat) 32 data s =
      hostTransaction (hostWord (if write then 1 else 0) 0 index (if write then data else 0)) 0 s := by
  have hindex : BitVec.ofNat 4 (4 * index.toNat / 4) = index := by
    rw [Nat.mul_div_cancel_left _ (by norm_num), BitVec.ofNat_toNat, BitVec.setWidth_eq]
  simp only [csrAccess, csrAccessReasons_aligned, csrAccessWord, hindex]

/-- Settles O6: the access is well formed, and its word is that of the transaction of its index. -/
theorem alignedCsrAccessIsTransaction : Obligations.AlignedCsrAccessIsTransaction :=
  fun s index data => ⟨csrAccess_aligned true index data s, csrAccess_aligned false index data s⟩

/-! ### What the agents leave alone -/

theorem State.hashCommand_eq (s : State) : s.hashCommand =
    { s with drv := s.hashCommand.drv, team := s.hashCommand.team, status := s.hashCommand.status } := by
  rcases hashCommand_cases s with ⟨-, heq⟩ | ⟨-, -, heq⟩ | ⟨-, -, -, heq⟩ | ⟨-, -, -, heq⟩ <;> rw [heq] <;> rfl

theorem State.afterStore_eq (s : State) (alone next : Driver) : s.afterStore alone next =
    { s with drv := (s.afterStore alone next).drv, team := (s.afterStore alone next).team } := by
  rcases s.afterStore_cases alone next with ⟨-, heq⟩ | ⟨-, -, heq⟩ | ⟨-, -, heq⟩ <;> rw [heq]

/-- A turn of a lane changes no LEN register, nothing of IN, the configuration or the reset count, and nothing of the
port. -/
theorem State.LaneMove.frame {s t : State} (h : s.LaneMove t) :
    t = { s with lane := t.lane, drv := t.drv, team := t.team, status := t.status, dout := t.dout
                 scr0 := t.scr0, scr1 := t.scr1 } := by
  cases h with
  | pass => unfold State.passTurn; split <;> rfl
  | uop => unfold State.afterUop; split <;> rfl
  | leafStore => rw [State.afterLeaf, State.afterStore_eq, State.scrWrite_eq]
  | parentStore => rw [State.afterParent, State.afterStore_eq, State.scrWrite_eq]
  | take | leafLoad | parentLoad | rootLoad | exportDigest => rfl

/-- What a host transaction can leave: HASH runs its command; WR_IN writes its byte in range while not BUSY; every other
outcome changes at most LEN and, of the port, the reply and the mark `refused`. -/
theorem exec_host_cases {i : Instr} {s t : State} (hhost : i.isHost = true) (h : exec i s = .next t) :
    (∃ data, i = .hash data ∧ t = s.hashCommand.respond .ack) ∨
    (∃ data a, i = .wrIn data a ∧ a < s.inBytes ∧ s.busy = false ∧
      t = (s.inWrite a (dataByte data)).respond .ack) ∨
    (t.port.inbox = s.port.inbox ∧ t = { s with lenLo := t.lenLo, lenHi := t.lenHi, port := t.port }) := by
  cases i with
  | init | g | perm | final => cases hhost
  | hash data => cases h; exact .inl ⟨data, rfl, rfl⟩
  | wrIn data a =>
    change execWrIn data a s = .next t at h
    unfold execWrIn State.inRange at h
    split_ifs at h with hr hb <;> cases h
    · exact .inr (.inr ⟨rfl, rfl⟩)
    · exact .inr (.inr ⟨rfl, rfl⟩)
    · exact .inr (.inl ⟨data, a, rfl, by simpa using hr, by simpa using hb, rfl⟩)
  | rdIn data addr =>
    change execRdIn data addr s = .next t at h
    unfold execRdIn at h
    split at h <;> cases h <;> exact .inr (.inr ⟨rfl, rfl⟩)
  | rdDout data addr =>
    change execRdDout data addr s = .next t at h
    unfold execRdDout at h
    split at h <;> cases h <;> exact .inr (.inr ⟨rfl, rfl⟩)
  | wrDout data addr =>
    change execWrDout data addr s = .next t at h
    unfold execWrDout at h
    split at h <;> cases h <;> exact .inr (.inr ⟨rfl, rfl⟩)
  | _ => cases h; exact .inr (.inr ⟨rfl, rfl⟩)

/-! ### DOUT (20_memory.md R51) -/

theorem State.LaneMove.dout_changed {s t : State} (h : s.LaneMove t) (hne : t.dout ≠ s.dout) :
    s.drv.phase = .root ∧ s.drv.sub = .store ∧ s.team.waiting = false ∧ t.dout = digestFromCv s.lane.cv ∧
      t.status = statusDone := by
  cases h with
  | exportDigest hw hph hsub => exact ⟨hph, hsub, hw, rfl, rfl⟩
  | take | leafLoad | parentLoad | rootLoad => exact absurd rfl hne
  | pass => exact absurd s.passTurn_dout hne
  | uop | leafStore | parentStore => simp at hne

theorem State.HostMove.dout_eq {s t : State} {r : HostRequest} (h : s.HostMove r t) : t.dout = s.dout := by
  cases h with
  | hash => exact (congrArg State.dout s.hashCommand_eq :)
  | wrIn | other => rfl

/-- Settles O54: EXPORT is the one turn of a lane, and the one event at all, that changes DOUT. -/
theorem doutChangesOnlyAtExport : Obligations.DoutChangesOnlyAtExport := by
  intro s t hstep hne
  rcases step_agent_cases s with ⟨lane, pick, hturn, heq⟩ | ⟨r, -, heq⟩ | ⟨-, heq⟩ <;> rw [heq] at hstep
  · rcases laneTurn_move hstep with ⟨-, rfl⟩ | ⟨-, hmove⟩
    · exact absurd rfl hne
    · rw [State.turnTo_withInbox] at hmove
      exact ⟨lane, pick, hturn, hmove.dout_changed (by simpa using hne)⟩
  · exact absurd (hostStep_move hstep).dout_eq hne
  · cases hstep
    exact absurd rfl hne

/-! ### IN (20_memory.md R50, R61) -/

theorem exec_inMem_changed {i : Instr} {s t : State} (hhost : i.isHost = true) (h : exec i s = .next t)
    (hne : t.inMem ≠ s.inMem) :
    ∃ data a, i = .wrIn data a ∧ a < s.inBytes ∧ s.busy = false ∧ t.inMem = s.inMem.write a (dataByte data) := by
  rcases exec_host_cases hhost h with ⟨_, -, rfl⟩ | ⟨data, a, hi, ha, hb, rfl⟩ | ⟨-, heq⟩
  · exact absurd (congrArg State.inMem s.hashCommand_eq :) hne
  · exact ⟨data, a, hi, ha, hb, rfl⟩
  · exact absurd (congrArg State.inMem heq) hne

/-- A CSR key chooses no row of IN (R73). -/
theorem decodeCsrWrite_ne_wrIn (index : BitVec 4) (word data : BitVec 32) (a : Nat) :
    decodeCsrWrite index word ≠ .wrIn data a := by
  unfold decodeCsrWrite
  split
  case h_1 => split <;> nofun
  all_goals nofun

theorem decodeCsrRead_ne_wrIn (index : BitVec 4) (word data : BitVec 32) (a : Nat) :
    decodeCsrRead index word ≠ .wrIn data a := by
  unfold decodeCsrRead
  split <;> nofun

/-- The key of WR_IN is 0xA0 (R77). -/
theorem decodeHostKey_wrIn {dir : BitVec 1} {space : BitVec 2} {index : BitVec 4} {word data : BitVec 32} {addr a : Nat}
    (h : decodeHostKey dir space index word addr = .wrIn data a) : dir = 1 ∧ space = 1 ∧ word = data ∧ addr = a := by
  unfold decodeHostKey at h
  split at h <;> split at h
  case h_2.isTrue hspace hdir => cases h; exact ⟨hdir, BitVec.eq_of_toNat_eq hspace, rfl, rfl⟩
  case h_1.isTrue => exact (decodeCsrWrite_ne_wrIn _ _ _ _ h).elim
  case h_1.isFalse => exact (decodeCsrRead_ne_wrIn _ _ _ _ h).elim
  all_goals cases h

/-- An admitted key has its reserved bit clear, and an INDEX of 0 outside the CSR space (R75). -/
theorem decodeHost_ok {htw : BitVec 40} {addr : Nat} {i : Instr} (h : decodeHost htw addr = .ok i) :
    htw.extractLsb' 36 1 = 0 ∧ (htw.extractLsb' 37 2 ≠ 0 → htw.extractLsb' 32 4 = 0) ∧
      decodeHostKey (htw.extractLsb' 39 1) (htw.extractLsb' 37 2) (htw.extractLsb' 32 4) (htw.extractLsb' 0 32) addr = i := by
  unfold decodeHost at h
  split at h
  · next hkey =>
    obtain ⟨hrsvd, hindex⟩ : htw.extractLsb' 36 1 ≠ 1 ∧ (htw.extractLsb' 37 2 ≠ 0 → htw.extractLsb' 32 4 = 0) := by
      simpa [hostKeyReasons] using (List.append_eq_nil_iff.mp hkey).2
    refine ⟨?_, hindex, Except.ok.inj h⟩
    generalize htw.extractLsb' 36 1 = b at hrsvd
    revert b
    decide
  · cases h

/-- A word that decodes to WR_IN is its code. -/
theorem decodeHost_wrIn {htw : BitVec 40} {addr a : Nat} {data : BitVec 32} (h : decodeHost htw addr = .ok (.wrIn data a)) :
    htw = hostWord 1 1 0 data ∧ addr = a := by
  obtain ⟨hrsvd, hindex, hkey⟩ := decodeHost_ok h
  obtain ⟨hdir, hspace, hword, haddr⟩ := decodeHostKey_wrIn hkey
  rw [← hostWord_extract hrsvd, hindex (by simp [hspace]), hdir, hspace, hword]
  exact ⟨rfl, haddr⟩

/-- SPACE is in bits 38:37 of the word. -/
theorem hostWord_space (dir : BitVec 1) (space : BitVec 2) (index : BitVec 4) (data : BitVec 32) :
    (hostWord dir space index data).extractLsb' 37 2 = space := by
  apply BitVec.eq_of_getLsbD_eq
  intro k hk
  rw [BitVec.getLsbD_extractLsb', Laws.TableRow.hostWord_bits]
  interval_cases k <;> simp

/-- The CSR window of a physical bus does not reach IN. -/
theorem csrAccessWord_ne_wrIn (write : Bool) (offset : Nat) (word data : Word) :
    csrAccessWord write offset word ≠ hostWord 1 1 0 data := fun h => by
  have hspace := congrArg (BitVec.extractLsb' 37 2) h
  rw [csrAccessWord, hostWord_space, hostWord_space] at hspace
  cases hspace

/-- The word of WR_IN: key 0xA0, then DATA32. -/
theorem hostWord_wrIn (data : BitVec 32) : hostWord 1 1 0 data = 0xA0#8 ++ data := rfl

theorem hostStep_inMem_changed {r : HostRequest} {s t : State} (h : hostStep r s = .next t) (hne : t.inMem ≠ s.inMem) :
    s.busy = false ∧ ∃ data a, a < s.inBytes ∧ r = .transaction (0xA0#8 ++ data) a ∧
      t.inMem = s.inMem.write a (dataByte data) := by
  cases r with
  | transaction htw addr =>
    rcases hostTransaction_cases htw addr s with ⟨why, -, heq⟩ | ⟨i, hd, heq⟩ <;> rw [hostStep, heq] at h
    · cases h; exact absurd rfl hne
    · obtain ⟨data, a, rfl, ha, hb, hmem⟩ := exec_inMem_changed (decodeHost_isHost hd) h hne
      obtain ⟨rfl, rfl⟩ := decodeHost_wrIn hd
      exact ⟨hb, data, addr, ha, by rw [hostWord_wrIn], hmem⟩
  | csrAccess write offset width word =>
    change csrAccess write offset width word s = .next t at h
    unfold csrAccess at h
    split at h
    · rcases hostTransaction_cases (csrAccessWord write offset word) 0 s with ⟨why, -, heq⟩ | ⟨i, hd, heq⟩ <;>
        rw [heq] at h
      · cases h; exact absurd rfl hne
      · obtain ⟨data, a, rfl, -⟩ := exec_inMem_changed (decodeHost_isHost hd) h hne
        exact (csrAccessWord_ne_wrIn _ _ _ _ (decodeHost_wrIn hd).1).elim
    · cases h; exact absurd rfl hne

/-- Settles O55: WR_IN is the one host request, and the one event at all, that changes IN; it writes one byte. -/
theorem inChangesOnlyByIdleWrIn : Obligations.InChangesOnlyByIdleWrIn := by
  intro s t hstep hne
  rcases step_agent_cases s with ⟨lane, pick, -, heq⟩ | ⟨r, hr, heq⟩ | ⟨-, heq⟩ <;> rw [heq] at hstep
  · rcases laneTurn_move hstep with ⟨-, rfl⟩ | ⟨-, hmove⟩
    · exact absurd rfl hne
    · exact absurd ((congrArg State.inMem hmove.frame).trans (State.turnTo_inMem _ _)) hne
  · obtain ⟨hb, data, a, ha, rfl, hmem⟩ := hostStep_inMem_changed hstep hne
    refine ⟨hb, data, a, ha, hr, fun b hba => ?_⟩
    rw [State.inRead, hmem]
    exact Memory.read_write_other _ _ _ _ hba
  · cases hstep
    exact absurd rfl hne

end Sys2Proof.Machine
end

section
/-! SUPPORT. The uops as functions on the registers of a lane, and the ROM's 64 as `compress` (42_compression.md R126 to
R131). -/

namespace Sys2Proof.Machine

/-! ### One uop -/

/-- What a uop does to the registers of its lane (R126 to R129); a host transaction does nothing to them. -/
def Lane.uop (l : Lane) : Instr → Lane
  | .init => { l with s := initState l.cv l.cnt l.blen l.flg }
  | .g a b c d x y => { l with
      s := mixG l.s (regIndex a) (regIndex b) (regIndex c) (regIndex d) l.m[regIndex x] l.m[regIndex y] }
  | .perm => { l with m := permute l.m }
  | .final => { l with cv := foldState l.s }
  | _ => l

variable (l : Lane)

theorem Lane.uop_init : l.uop .init = { l with s := initState l.cv l.cnt l.blen l.flg } := rfl

theorem Lane.uop_g (a b c d x y : BitVec 4) : l.uop (.g a b c d x y) = { l with
    s := mixG l.s (regIndex a) (regIndex b) (regIndex c) (regIndex d) l.m[regIndex x] l.m[regIndex y] } := rfl

theorem Lane.uop_perm : l.uop .perm = { l with m := permute l.m } := rfl

theorem Lane.uop_final : l.uop .final = { l with cv := foldState l.s } := rfl

theorem exec_uop_eq {u : BitVec 32} {i : Instr} (h : decodeUop u = .ok i) (s : State) :
    exec i s = .next { s with lane := s.lane.uop i } := by
  rcases decodeUop_cases h with rfl | rfl | rfl | rfl <;> rfl

/-- The ROM decodes to the assembled COMPRESS (R130). -/
theorem decodeUop_rom (k : Fin 64) : decodeUop uopRom[k] = .ok (asmCompress[k.val]'k.isLt) := by
  revert k
  decide +kernel

/-! ### A list of uops -/

/-- The uops of the list, in order. -/
def Lane.uops (l : Lane) (is : List Instr) : Lane := is.foldl Lane.uop l

theorem Lane.uops_append (is js : List Instr) : l.uops (is ++ js) = (l.uops is).uops js :=
  List.foldl_append

/-- No uop reads or writes `upc`. -/
theorem Lane.uop_upc (c : BitVec 6) (i : Instr) : Lane.uop { l with upc := c } i = { l.uop i with upc := c } := by
  cases i <;> rfl

theorem Lane.upc_uop (i : Instr) : (l.uop i).upc = l.upc := by
  cases i <;> rfl

theorem Lane.uops_upc (l : Lane) (c : BitVec 6) (is : List Instr) :
    Lane.uops { l with upc := c } is = { l.uops is with upc := c } := by
  induction is generalizing l with
  | nil => rfl
  | cons i is ih => exact (congrArg (Lane.uops · is) (l.uop_upc c i)).trans (ih (l.uop i))

/-! ### The 64 uops of COMPRESS -/

theorem Lane.uops_asmColumns : l.uops asmColumns = { l with s := columnCalls l.s l.m } := by
  simp only [Lane.uops, asmColumns, List.foldl_cons, List.foldl_nil, Lane.uop_g, columnCalls]
  rfl

theorem Lane.uops_asmDiagonals : l.uops asmDiagonals = { l with s := diagonalCalls l.s l.m } := by
  simp only [Lane.uops, asmDiagonals, List.foldl_cons, List.foldl_nil, Lane.uop_g, diagonalCalls]
  rfl

theorem Lane.uops_asmRound : l.uops asmRound = { l with s := round l.s l.m } := by
  rw [asmRound, Lane.uops_append, Lane.uops_asmColumns, Lane.uops_asmDiagonals, round]

theorem Lane.uops_asmRound_perm :
    l.uops (asmRound ++ [.perm]) = { l with s := round l.s l.m, m := permute l.m } := by
  rw [Lane.uops_append, Lane.uops_asmRound]
  rfl

/-- A round, and the permutation that follows each but the last (R121). -/
def roundThenPermute (p : Block × Block) : Block × Block := (round p.1 p.2, permute p.2)

theorem runRounds_eq (st msg : Block) :
    runRounds st msg = (fun p => (round p.1 p.2, p.2)) (roundThenPermute^[6] (st, msg)) := rfl

/-- COMPRESS leaves `compress` of the registers in CV, the state after the rounds in S, and `permute` six times in M
(R131). -/
theorem Lane.uops_asmCompress : l.uops asmCompress =
    { l with
      s := (runRounds (initState l.cv l.cnt l.blen l.flg) l.m).1
      m := permuteTimes 6 l.m
      cv := compress l.cv l.m l.cnt l.blen l.flg } := by
  simp only [asmCompress, List.reduceReplicate, List.flatten_cons, List.flatten_nil, List.append_nil,
    Lane.uops_append _ _ [Instr.final], Lane.uops_append _ [Instr.init], Lane.uops_append _ _ asmRound,
    Lane.uops_append _ (asmRound ++ [Instr.perm]), Lane.uops_asmRound_perm, Lane.uops_asmRound, compress,
    runRounds_eq, roundThenPermute, Function.iterate_succ_apply, Function.iterate_zero_apply]
  rfl

end Sys2Proof.Machine
end

section
/-! SUPPORT. Where a lane stands with the compression it is at: before its LOAD, inside its 64 uops, or after them
(43_chunk_merkle.md R156, R157, R159, R161). -/

namespace Sys2Proof.Machine

/-! ### The operands of a compression -/

/-- What a LOAD gives a compression beside BLEN, which is 64 always. -/
structure Operands where
  cv : CVal
  block : Block
  cnt : BitVec 64
  flg : Word

/-- The compression of the operands. -/
def Operands.result (o : Operands) : CVal := compress o.cv o.block o.cnt 64 o.flg

/-- A lane with the operands loaded, whatever S holds. -/
def Operands.lane (o : Operands) (st : Block) (upc : BitVec 6) : Lane :=
  { s := st, m := o.block, cv := o.cv, cnt := o.cnt, blen := 64, flg := o.flg, upc := upc }

/-- The lane has had the operands loaded and has run the uops before `upc`. -/
def Lane.Running (l : Lane) (o : Operands) : Prop :=
  ∃ st, l = (o.lane st l.upc).uops (asmCompress.take l.upc.toNat)

theorem Operands.lane_running (o : Operands) (st : Block) : (o.lane st 0).Running o := ⟨st, rfl⟩

/-- The uop at `upc` of the assembled COMPRESS. -/
def Lane.nextUop (l : Lane) : Instr := asmCompress[l.upc.toNat]'l.upc.isLt

/-- After the uop at `upc` the lane has run one uop more. -/
theorem Lane.Running.uop {l : Lane} {o : Operands} (h : l.Running o) :
    ∃ st, l.uop l.nextUop = (o.lane st l.upc).uops (asmCompress.take (l.upc.toNat + 1)) := by
  obtain ⟨st, hl⟩ := h
  refine ⟨st, ?_⟩
  rw [List.take_add_one, List.getElem?_eq_getElem (show l.upc.toNat < asmCompress.length from l.upc.isLt),
    Lane.uops_append, ← hl]
  rfl

theorem Lane.upc_add_one {l : Lane} (hupc : l.upc ≠ 63) : (l.upc + 1).toNat = l.upc.toNat + 1 := by
  have hne : l.upc.toNat ≠ 63 := fun h63 => hupc (BitVec.eq_of_toNat_eq h63)
  exact BitVec.toNat_add_of_lt (by have := l.upc.isLt; change _ + 1 < _; omega)

/-- Below 63 `upc` counts the uop (R157). -/
theorem Lane.Running.advance {l : Lane} {o : Operands} (h : l.Running o) (hupc : l.upc ≠ 63) :
    Lane.Running { l.uop l.nextUop with upc := l.upc + 1 } o := by
  obtain ⟨st, hl⟩ := h.uop
  refine ⟨st, ?_⟩
  change _ = (o.lane st (l.upc + 1)).uops (asmCompress.take (l.upc + 1).toNat)
  rw [hl, Lane.upc_add_one hupc, ← Lane.uops_upc]
  rfl

/-- The uop at 63 leaves the compression of the operands in CV (R131). -/
theorem Lane.Running.result {l : Lane} {o : Operands} (h : l.Running o) (hupc : l.upc = 63) :
    (l.uop l.nextUop).cv = o.result := by
  obtain ⟨st, hl⟩ := h.uop
  rw [hl, hupc, show asmCompress.take ((63 : BitVec 6).toNat + 1) = asmCompress from rfl, Lane.uops_asmCompress]
  rfl

/-! ### The operands at a position of the driver -/

/-- The operands of the compression at a position of the driver, for the input and the levels made of it: block BJ of
chunk CI (R140), the two children of node NODE of level LVL (R144), or the two children of the root (R146). -/
def Driver.operands (input : Nat → Byte) (d : Driver) : Operands :=
  match d.phase with
  | .leaf =>
    { cv := chunkPrefix input (chunkLen * d.ci.toNat) d.ci d.bj.toNat
      block := blockFromLeBytes (bytesAt input (chunkLen * d.ci.toNat + blockLen * d.bj.toNat))
      cnt := d.ci, flg := leafFlags d.bj.toNat }
  | .parent =>
    { cv := iv
      block := parentBlock (levelCv input (d.lvl.toNat - 1) (2 * d.node.toNat))
        (levelCv input (d.lvl.toNat - 1) (2 * d.node.toNat + 1))
      cnt := 0, flg := parentFlags }
  | .root | .idle =>
    { cv := iv
      block := parentBlock (levelCv input (d.logn.toNat - 1) 0) (levelCv input (d.logn.toNat - 1) 1)
      cnt := 0, flg := rootFlags }

theorem Driver.operands_leaf {d : Driver} (hph : d.phase = .leaf) (input : Nat → Byte) :
    d.operands input = ⟨chunkPrefix input (chunkLen * d.ci.toNat) d.ci d.bj.toNat,
      blockFromLeBytes (bytesAt input (chunkLen * d.ci.toNat + blockLen * d.bj.toNat)), d.ci, leafFlags d.bj.toNat⟩ := by
  rw [Driver.operands, hph]

theorem Driver.operands_parent {d : Driver} (hph : d.phase = .parent) (input : Nat → Byte) :
    d.operands input = ⟨iv, parentBlock (levelCv input (d.lvl.toNat - 1) (2 * d.node.toNat))
      (levelCv input (d.lvl.toNat - 1) (2 * d.node.toNat + 1)), 0, parentFlags⟩ := by
  rw [Driver.operands, hph]

theorem Driver.operands_root {d : Driver} (hph : d.phase = .root) (input : Nat → Byte) :
    d.operands input = ⟨iv, parentBlock (levelCv input (d.logn.toNat - 1) 0) (levelCv input (d.logn.toNat - 1) 1), 0,
      rootFlags⟩ := by
  rw [Driver.operands, hph]

/-! ### What the compression leaves -/

/-- Block `j` takes the chunk's CV one block on (R140). -/
theorem chunkPrefix_succ (input : Nat → Byte) (start : Nat) (index : BitVec 64) (j : Nat) :
    chunkPrefix input start index (j + 1) = chunkPass input start index (chunkPrefix input start index j) j := by
  rw [chunkPrefix, List.range_succ, List.foldl_append]
  rfl

/-- The compression of a block of a chunk leaves the chunk's CV after it. -/
theorem Driver.result_leaf {d : Driver} (hph : d.phase = .leaf) (input : Nat → Byte) :
    (d.operands input).result = chunkPrefix input (chunkLen * d.ci.toNat) d.ci (d.bj.toNat + 1) := by
  rw [chunkPrefix_succ, Driver.operands_leaf hph]
  rfl

/-- The compression of a chunk's last block leaves the chunk's entry of level 0 (R143). -/
theorem Driver.result_lastBlock {d : Driver} (hph : d.phase = .leaf) (hbj : d.bj = 15) (input : Nat → Byte) :
    (d.operands input).result = levelCv input 0 d.ci.toNat := by
  rw [Driver.result_leaf hph, hbj, levelCv, BitVec.ofNat_toNat, BitVec.setWidth_eq]
  rfl

/-- The compression of a node leaves the node's entry of level LVL (R149). -/
theorem Driver.result_parent {d : Driver} (hph : d.phase = .parent) (hlvl : 1 ≤ d.lvl.toNat) (input : Nat → Byte) :
    (d.operands input).result = levelCv input d.lvl.toNat d.node.toNat := by
  rw [← Nat.sub_add_cancel hlvl, levelCv, Driver.operands_parent hph]
  rfl

/-- The compression of the root leaves `root_cv` (R146). -/
theorem Driver.result_root {d : Driver} (hph : d.phase = .root) (input : Nat → Byte) :
    (d.operands input).result = rootCv input d.logn.toNat := by
  rw [Driver.operands_root hph]
  rfl

/-! ### The steps of a compression -/

/-- Where a lane stands with the compression at its position: inside a chunk a LOAD finds the CV the blocks before have
left, a RUN step finds the uops before `upc` done, and a STORE finds the result of the task's last compression. -/
structure Lane.Computes (l : Lane) (input : Nat → Byte) (d : Driver) : Prop where
  chained : d.phase = .leaf → d.sub = .load → d.bj ≠ 0 → l.cv = (d.operands input).cv
  running : d.sub = .run → l.Running (d.operands input)
  result : d.sub = .store → l.cv = (d.operands input).result
  lastBlock : d.phase = .leaf → d.sub = .store → d.bj = 15

/-- At the LOAD of a task's first compression nothing has been computed yet. -/
theorem Lane.computes_of_load {d : Driver} (hsub : d.sub = .load) (hbj : d.phase = .leaf → d.bj = 0) (l : Lane)
    (input : Nat → Byte) : l.Computes input d := by
  constructor <;> simp +contextual [hsub, hbj]

/-- A LOAD of the operands. -/
theorem Lane.computes_loaded {d : Driver} {o : Operands} {input : Nat → Byte} (h : o = d.operands input) (st : Block) :
    (o.lane st 0).Computes input { d with sub := .run } where
  chained := nofun
  running _ := h ▸ o.lane_running st
  result := nofun
  lastBlock := nofun

/-- A RUN step below 63 (R157). -/
theorem Lane.Computes.advance {l : Lane} {input : Nat → Byte} {d : Driver} (h : l.Computes input d) (hsub : d.sub = .run)
    (hupc : l.upc ≠ 63) : Lane.Computes { l.uop l.nextUop with upc := l.upc + 1 } input d where
  chained _ hload := absurd (hsub.symm.trans hload) nofun
  running _ := (h.running hsub).advance hupc
  result hstore := absurd (hsub.symm.trans hstore) nofun
  lastBlock _ hstore := absurd (hsub.symm.trans hstore) nofun

/-- The RUN step at 63 (R157): the next block of the chunk finds the CV chained, a STORE the result. -/
theorem Lane.Computes.afterCompression {l : Lane} {input : Nat → Byte} {d : Driver} (h : l.Computes input d)
    (hsub : d.sub = .run) (hupc : l.upc = 63) : (l.uop l.nextUop).Computes input d.afterCompression := by
  have hresult := (h.running hsub).result hupc
  have hlt := d.bj.isLt
  unfold Driver.afterCompression
  split
  · next hmore =>
    obtain ⟨hph, hbj⟩ := hmore
    have hsucc : (d.bj + 1).toNat = d.bj.toNat + 1 := BitVec.toNat_add_of_lt (by change _ + 1 < _; omega)
    refine ⟨fun hleaf _ _ => ?_, nofun, nofun, nofun⟩
    rw [hresult, Driver.result_leaf hph, ← hsucc, Driver.operands_leaf hleaf]
  · next hend =>
    refine ⟨nofun, nofun, fun _ => hresult, fun hph _ => ?_⟩
    have hbj : ¬ d.bj.toNat < 15 := fun hbj => hend ⟨hph, hbj⟩
    exact BitVec.eq_of_toNat_eq (by change d.bj.toNat = 15; omega)

end Sys2Proof.Machine
end

section
/-! SUPPORT. A run of the reference model, which has one lane (10_state.md R27): what holds at every step of it, and how
many steps are left (43_chunk_merkle.md R166, R167). -/

namespace Sys2Proof.Machine

/-! ### The scratch banks -/

/-- The bank counts modulo 2 (20_memory.md R52). -/
theorem State.scrRead_congr {b c : Nat} (h : b % 2 = c % 2) (s : State) (k : Nat) : s.scrRead b k = s.scrRead c k := by
  simp only [State.scrRead, State.bank, h]

/-- The level whose entries the tasks of a parent level or of the root read (R153). -/
def State.sourceLevel (s : State) : Nat :=
  if s.drv.phase = .root then s.drv.logn.toNat - 1 else s.drv.lvl.toNat - 1

/-- The first `count` slots of the bank of level `r` hold the level's first entries. -/
def State.Holds (s : State) (input : Nat → Byte) (r count : Nat) : Prop :=
  ∀ k < count, s.scrRead r k = levelCv input r k

/-- A STORE to the other bank, or to a slot after them, leaves the entries alone. -/
theorem State.Holds.scrWrite {s : State} {input : Nat → Byte} {r count : Nat} (h : s.Holds input r count) {b i : Nat}
    (hb : r % 2 ≠ b % 2 ∨ count ≤ i) (cv : CVal) : (s.scrWrite b i cv).Holds input r count := fun k hk => by
  rw [State.scrRead_scrWrite_other _ _ _ _ _ _ (hb.imp_right fun hi => by omega)]
  exact h k hk

/-- A STORE of the entry after them adds it. -/
theorem State.Holds.store {s : State} {input : Nat → Byte} {r count : Nat} (h : s.Holds input r count) {b : Nat}
    (hb : b % 2 = r % 2) {cv : CVal} (hcv : cv = levelCv input r count) :
    (s.scrWrite b count cv).Holds input r (count + 1) := fun k hk => by
  rcases Nat.lt_succ_iff_lt_or_eq.mp hk with hlt | rfl
  · exact h.scrWrite (.inr le_rfl) cv k hlt
  · rw [State.scrRead_congr hb.symm, State.scrRead_scrWrite_same, hcv]

/-! ### What holds along a run -/

/-- What no step of a run with one lane changes, for the IN the run has and the `2^n` chunks it is over. -/
structure State.LoneConfig (s : State) (mem : Memory) (n : Nat) : Prop where
  sizes : 10 ≤ n ∧ n ≤ s.log2NMax.toNat ∧ s.log2NMax.toNat ≤ Config.log2NMaxGreatest
  romFixed : s.rom = uopRom
  inMem : s.inMem = mem
  alone : s.team.parked = []
  works : s.team.waiting = false
  status : s.status = statusBusy
  nreg : s.drv.nreg.toNat = 2 ^ n
  logn : s.drv.logn.toNat = n

/-- A run with one lane that has not ended: the level it reads has been stored whole, the level it makes up to the task the
lane works on, and the lane stands where it should with that task. -/
structure State.LoneRun (s : State) (mem : Memory) (n : Nat) : Prop where
  config : s.LoneConfig mem n
  active : s.drv.phase ≠ .idle
  level : s.drv.phase = .parent → 1 ≤ s.drv.lvl.toNat ∧ s.drv.lvl.toNat < n
  inLevel : s.seat.task s.drv.phase < s.levelTasks
  source : s.drv.phase ≠ .leaf → s.Holds mem.read s.sourceLevel (2 * s.levelTasks)
  stored : s.Holds mem.read s.levelBank (s.seat.task s.drv.phase)
  computes : s.lane.Computes mem.read s.drv

/-- A run that has ended. -/
structure State.LoneEnd (s : State) (mem : Memory) (n : Nat) : Prop where
  idle : s.drv.phase = .idle
  status : s.status = statusDone
  cv : s.lane.cv = rootCv mem.read n
  dout : s.dout = coreHash mem.read n
  inMem : s.inMem = mem

/-! ### The steps left -/

/-- The steps left of one compression. -/
def compressionLeft : Sub → BitVec 6 → Nat
  | .load, _ => compressionSteps
  | .run, upc => 64 - upc.toNat
  | .store, _ => 0

/-- The steps left after a level of `m` entries has been stored: `m − 2` parents with their STOREs, the root and EXPORT. -/
def stepsAbove (m : Nat) : Nat := (compressionSteps + 1) * (m - 2) + (compressionSteps + 1)

/-- The steps left of the run after the compression at a position of the driver. -/
def Driver.stepsAfter (d : Driver) : Nat :=
  match d.phase with
  | .leaf =>
    compressionSteps * (15 - d.bj.toNat) + 1 + (16 * compressionSteps + 1) * (d.nreg.toNat - 1 - d.ci.toNat) +
      stepsAbove d.nreg.toNat
  | .parent =>
    1 + (compressionSteps + 1) * (d.nreg.toNat >>> d.lvl.toNat - 1 - d.node.toNat) +
      stepsAbove (d.nreg.toNat >>> d.lvl.toNat)
  | .root | .idle => 1

/-- The core steps left of a run with one lane (R166). -/
def State.stepsLeft (s : State) : Nat := compressionLeft s.drv.sub s.lane.upc + s.drv.stepsAfter

theorem Driver.stepsAfter_leaf {d : Driver} (hph : d.phase = .leaf) : d.stepsAfter =
    compressionSteps * (15 - d.bj.toNat) + 1 + (16 * compressionSteps + 1) * (d.nreg.toNat - 1 - d.ci.toNat) +
      stepsAbove d.nreg.toNat := by
  rw [Driver.stepsAfter, hph]

theorem Driver.stepsAfter_parent {d : Driver} (hph : d.phase = .parent) : d.stepsAfter =
    1 + (compressionSteps + 1) * (d.nreg.toNat >>> d.lvl.toNat - 1 - d.node.toNat) +
      stepsAbove (d.nreg.toNat >>> d.lvl.toNat) := by
  rw [Driver.stepsAfter, hph]

theorem Driver.stepsAfter_root {d : Driver} (hph : d.phase = .root) : d.stepsAfter = 1 := by
  rw [Driver.stepsAfter, hph]

/-- Above a level of `2m` entries stands the level of `m` nodes and what is above it. -/
theorem stepsAbove_double {m : Nat} (hm : 2 ≤ m) : stepsAbove (2 * m) = (compressionSteps + 1) * m + stepsAbove m := by
  simp only [stepsAbove, compressionSteps]
  omega

theorem State.stepsLeft_pos (s : State) : 0 < s.stepsLeft := by
  unfold State.stepsLeft Driver.stepsAfter
  split <;> omega

section
variable {s : State}

/-- At the first LOAD of a chunk. -/
theorem State.stepsLeft_chunk (hph : s.drv.phase = .leaf) (hsub : s.drv.sub = .load) (hbj : s.drv.bj = 0)
    (hlt : s.drv.ci.toNat < s.drv.nreg.toNat) : s.stepsLeft =
      (16 * compressionSteps + 1) * (s.drv.nreg.toNat - s.drv.ci.toNat) + stepsAbove s.drv.nreg.toNat := by
  have hleft : s.drv.nreg.toNat - s.drv.ci.toNat = s.drv.nreg.toNat - 1 - s.drv.ci.toNat + 1 := by omega
  rw [State.stepsLeft, Driver.stepsAfter_leaf hph, hsub, hbj, hleft, Nat.mul_succ]
  change compressionSteps + (compressionSteps * 15 + 1 + _ + _) = _
  omega

/-- At the STORE of a chunk. -/
theorem State.stepsLeft_chunkStore (hph : s.drv.phase = .leaf) (hsub : s.drv.sub = .store) (hbj : s.drv.bj = 15) :
    s.stepsLeft =
      (16 * compressionSteps + 1) * (s.drv.nreg.toNat - (s.drv.ci.toNat + 1)) + stepsAbove s.drv.nreg.toNat + 1 := by
  rw [State.stepsLeft, Driver.stepsAfter_leaf hph, hsub, hbj, Nat.sub_sub, Nat.add_comm 1 s.drv.ci.toNat]
  change 0 + (compressionSteps * 0 + 1 + _ + _) = _
  omega

/-- At the LOAD of a node. -/
theorem State.stepsLeft_node (hph : s.drv.phase = .parent) (hsub : s.drv.sub = .load)
    (hlt : s.drv.node.toNat < s.drv.nreg.toNat >>> s.drv.lvl.toNat) : s.stepsLeft =
      (compressionSteps + 1) * (s.drv.nreg.toNat >>> s.drv.lvl.toNat - s.drv.node.toNat) +
        stepsAbove (s.drv.nreg.toNat >>> s.drv.lvl.toNat) := by
  have hleft : s.drv.nreg.toNat >>> s.drv.lvl.toNat - s.drv.node.toNat =
      s.drv.nreg.toNat >>> s.drv.lvl.toNat - 1 - s.drv.node.toNat + 1 := by omega
  rw [State.stepsLeft, Driver.stepsAfter_parent hph, hsub, hleft, Nat.mul_succ, compressionLeft]
  omega

/-- At the LOAD of the first node of a level of `2m` entries' parents: what was above the level below. -/
theorem State.stepsLeft_firstNode (hph : s.drv.phase = .parent) (hsub : s.drv.sub = .load) (hnode : s.drv.node = 0)
    {m : Nat} (hsize : s.levelSize = m) (hm : 2 ≤ m) : s.stepsLeft = stepsAbove (2 * m) := by
  rw [State.levelSize] at hsize
  have hzero : s.drv.node.toNat = 0 := congrArg BitVec.toNat hnode
  rw [State.stepsLeft_node hph hsub (by omega), hsize, hzero, stepsAbove_double hm, Nat.sub_zero]

/-- At the STORE of a node. -/
theorem State.stepsLeft_nodeStore (hph : s.drv.phase = .parent) (hsub : s.drv.sub = .store) : s.stepsLeft =
    (compressionSteps + 1) * (s.drv.nreg.toNat >>> s.drv.lvl.toNat - (s.drv.node.toNat + 1)) +
      stepsAbove (s.drv.nreg.toNat >>> s.drv.lvl.toNat) + 1 := by
  rw [State.stepsLeft, Driver.stepsAfter_parent hph, hsub, Nat.sub_sub, Nat.add_comm 1 s.drv.node.toNat, compressionLeft]
  omega

end

section
variable {s : State} {mem : Memory} {n : Nat}

/-- The lane's step is the core's. -/
theorem State.LoneRun.coreStep_eq (h : s.LoneRun mem n) : coreStep s = fsmStep s := laneStep_working h.config.works 0

theorem State.task_leaf (hph : s.drv.phase = .leaf) : s.seat.task s.drv.phase = s.drv.ci.toNat := by
  rw [hph]
  rfl

theorem State.task_parent (hph : s.drv.phase = .parent) : s.seat.task s.drv.phase = s.drv.node.toNat := by
  rw [hph]
  rfl

theorem State.LoneRun.ci_lt (h : s.LoneRun mem n) (hph : s.drv.phase = .leaf) : s.drv.ci.toNat < s.drv.nreg.toNat := by
  have hlt := h.inLevel
  rwa [State.task_leaf hph, State.levelTasks, hph] at hlt

theorem State.LoneRun.node_lt (h : s.LoneRun mem n) (hph : s.drv.phase = .parent) :
    s.drv.node.toNat < s.drv.nreg.toNat >>> s.drv.lvl.toNat := by
  have hlt := h.inLevel
  rwa [State.task_parent hph, State.levelTasks, hph] at hlt

theorem State.LoneConfig.nMax_ge (h : s.LoneConfig mem n) : 2 ^ n ≤ s.nMax := by
  obtain ⟨-, hcap, -⟩ := h.sizes
  exact Nat.pow_le_pow_right (by norm_num) hcap

theorem State.LoneRun.levelTasks_parent (h : s.LoneRun mem n) (hph : s.drv.phase = .parent) :
    s.levelTasks = 2 ^ (n - s.drv.lvl.toNat) := by
  rw [State.levelTasks, hph]
  exact s.levelSize_eq n h.config.nreg (h.level hph).2.le

/-! ### LOAD and RUN steps -/

/-- The run goes on inside a task. -/
theorem State.LoneRun.stay (h : s.LoneRun mem n) {lane : Lane} {sub : Sub} {bj : BitVec 4}
    (hlane : lane.Computes mem.read { s.drv with sub := sub, bj := bj }) :
    { s with lane := lane, drv := { s.drv with sub := sub, bj := bj } }.LoneRun mem n where
  config := ⟨h.config.sizes, h.config.romFixed, h.config.inMem, h.config.alone, h.config.works, h.config.status,
    h.config.nreg, h.config.logn⟩
  active := h.active
  level := h.level
  inLevel := h.inLevel
  source := h.source
  stored := h.stored
  computes := hlane

/-- A step of the run that is not its last: the run goes on, with one step less left. -/
def State.LoneNext (s t : State) (mem : Memory) (n : Nat) : Prop := t.LoneRun mem n ∧ s.stepsLeft = t.stepsLeft + 1

/-- The run goes on inside a compression. -/
theorem State.LoneRun.stayNext (h : s.LoneRun mem n) {lane : Lane} {sub : Sub}
    (hlane : lane.Computes mem.read { s.drv with sub := sub })
    (hleft : compressionLeft s.drv.sub s.lane.upc = compressionLeft sub lane.upc + 1) :
    s.LoneNext { s with lane := lane, drv := { s.drv with sub := sub } } mem n := by
  refine ⟨h.stay (bj := s.drv.bj) hlane, ?_⟩
  change compressionLeft s.drv.sub s.lane.upc + s.drv.stepsAfter =
    compressionLeft sub lane.upc + s.drv.stepsAfter + 1
  omega

theorem State.LoneRun.load (h : s.LoneRun mem n) (hsub : s.drv.sub = .load) {cv : CVal} {m : Block} {cnt : BitVec 64}
    {flg : Word} (hop : ⟨cv, m, cnt, flg⟩ = s.drv.operands mem.read) :
    s.LoneNext (s.loadOperands cv m cnt flg) mem n :=
  h.stayNext (Lane.computes_loaded hop s.lane.s) (by rw [hsub]; rfl)

theorem State.LoneRun.leafLoad (h : s.LoneRun mem n) (hph : s.drv.phase = .leaf) (hsub : s.drv.sub = .load) :
    ∃ t, leafLoad s = .next t ∧ s.LoneNext t mem n := by
  have hin : s.leafBase + 64 ≤ s.inBytes := by
    have hci := h.ci_lt hph
    rw [h.config.nreg] at hci
    have hmax := h.config.nMax_ge
    have hbj := s.drv.bj.isLt
    rw [State.leafBase, State.inBytes]
    omega
  refine ⟨s.leafLoaded, if_pos hin, h.load hsub ?_⟩
  have hcv : (if s.drv.bj = 0 then iv else s.lane.cv) = (s.drv.operands mem.read).cv := by
    split
    · next hbj => rw [Driver.operands_leaf hph, hbj]; rfl
    · next hbj => exact h.computes.chained hph hsub hbj
  rw [hcv, Driver.operands_leaf hph, ← h.config.inMem]
  rfl

/-- A LOAD of two children takes the entries of the level below that the task combines. -/
theorem State.LoneRun.childrenLoad (h : s.LoneRun mem n) (hph : s.drv.phase ≠ .leaf) (hsub : s.drv.sub = .load)
    {b k : Nat} (hb : b % 2 = s.sourceLevel % 2) (hk : k + 1 < 2 * s.levelTasks) {flg : Word}
    (hop : ⟨iv, parentBlock (levelCv mem.read s.sourceLevel k) (levelCv mem.read s.sourceLevel (k + 1)), 0, flg⟩ =
      s.drv.operands mem.read) : s.LoneNext (s.childrenLoaded b k flg) mem n := by
  have hread (i : Nat) (hi : i < 2 * s.levelTasks) : s.scrRead b i = levelCv mem.read s.sourceLevel i :=
    (State.scrRead_congr hb s i).trans (h.source hph i hi)
  rw [State.childrenLoaded, hread k (by omega), hread (k + 1) hk]
  exact h.load hsub hop

theorem State.LoneRun.parentLoad (h : s.LoneRun mem n) (hph : s.drv.phase = .parent) (hsub : s.drv.sub = .load) :
    ∃ t, parentLoad s = .next t ∧ s.LoneNext t mem n := by
  obtain ⟨hpos, hlt⟩ := h.level hph
  have htask := h.inLevel
  rw [State.task_parent hph] at htask
  have hlevel : s.sourceLevel = s.drv.lvl.toNat - 1 := by simp [State.sourceLevel, hph]
  have hin : 2 * s.drv.node.toNat + 1 < s.nMax := by
    have htasks := h.levelTasks_parent hph
    have hpow : 2 * 2 ^ (n - s.drv.lvl.toNat) ≤ 2 ^ n := by
      rw [← pow_succ']
      exact Nat.pow_le_pow_right (by norm_num) (by omega)
    have hmax := h.config.nMax_ge
    omega
  refine ⟨_, if_pos hin, h.childrenLoad (by simp [hph]) hsub ?_ (by omega) ?_⟩
  · rw [State.parentSource, toNat_sub_one_of_pos hpos, hlevel, Nat.mod_mod]
  · rw [hlevel, Driver.operands_parent hph]

theorem State.LoneRun.rootLoad (h : s.LoneRun mem n) (hph : s.drv.phase = .root) (hsub : s.drv.sub = .load) :
    ∃ t, rootLoad s = .next t ∧ s.LoneNext t mem n := by
  obtain ⟨hn, -⟩ := h.config.sizes
  have hlogn := h.config.logn
  have hlevel : s.sourceLevel = s.drv.logn.toNat - 1 := by simp [State.sourceLevel, hph]
  have hin : 1 < s.nMax := (Nat.one_lt_two_pow (by omega)).trans_le h.config.nMax_ge
  refine ⟨_, if_pos hin, h.childrenLoad (by simp [hph]) hsub ?_ (by simp [State.levelTasks, hph]) ?_⟩
  · rw [State.rootSource, toNat_sub_one_of_pos (by omega), hlevel, Nat.mod_mod]
  · rw [hlevel, Driver.operands_root hph]

/-- A RUN step runs the next uop of COMPRESS. -/
theorem State.LoneConfig.runStep_eq (h : s.LoneConfig mem n) :
    runStep s = .next { s with lane := s.lane.uop s.lane.nextUop }.afterUop := by
  have hd : decodeUop s.fetchUop = .ok s.lane.nextUop := by
    rw [State.fetchUop, h.romFixed]
    exact decodeUop_rom s.lane.upc.toFin
  unfold runStep
  rw [hd]
  change finishRun (exec s.lane.nextUop s) = _
  rw [exec_uop_eq hd, finishRun]

/-- After the last uop of a block that is not its chunk's last the next block is loaded (R157). -/
theorem State.LoneRun.nextBlock (h : s.LoneRun mem n) (hph : s.drv.phase = .leaf) (hsub : s.drv.sub = .run)
    (hupc : s.lane.upc = 63) (hbj : s.drv.bj.toNat < 15) {lane : Lane}
    (hlane : lane.Computes mem.read { s.drv with bj := s.drv.bj + 1, sub := .load }) :
    s.LoneNext { s with lane := lane, drv := { s.drv with bj := s.drv.bj + 1, sub := .load } } mem n := by
  refine ⟨h.stay hlane, ?_⟩
  have hsucc : (s.drv.bj + 1).toNat = s.drv.bj.toNat + 1 := BitVec.toNat_add_of_lt (by change _ + 1 < _; omega)
  have hleft : 15 - s.drv.bj.toNat = 15 - (s.drv.bj + 1).toNat + 1 := by omega
  simp only [State.stepsLeft, Driver.stepsAfter, hph, hsub, hupc, hleft, Nat.mul_succ]
  change 1 + _ = compressionSteps + _ + 1
  omega

theorem State.LoneRun.runStep (h : s.LoneRun mem n) (hsub : s.drv.sub = .run) :
    ∃ t, runStep s = .next t ∧ s.LoneNext t mem n := by
  refine ⟨_, h.config.runStep_eq, ?_⟩
  unfold State.afterUop
  rw [Lane.upc_uop]
  split
  · next hupc =>
    have hdone := h.computes.afterCompression hsub hupc
    unfold Driver.afterCompression at hdone ⊢
    split at hdone
    · next hmore =>
      rw [if_pos hmore]
      obtain ⟨hph, hbj⟩ := hmore
      exact h.nextBlock hph hsub hupc hbj hdone
    · next hend =>
      rw [if_neg hend]
      exact h.stayNext hdone (by rw [hsub, hupc]; rfl)
  · next hupc =>
    have hsucc := Lane.upc_add_one hupc
    have hlt := (s.lane.upc + 1).isLt
    refine h.stayNext (h.computes.advance hsub hupc) ?_
    rw [hsub]
    change 64 - s.lane.upc.toNat = 64 - (s.lane.upc + 1).toNat + 1
    omega

/-! ### STORE steps -/

theorem State.LoneRun.levelTasks_le (h : s.LoneRun mem n) : s.levelTasks ≤ s.nMax := by
  have hmax := h.config.nMax_ge
  have hnreg := h.config.nreg
  have hsize : s.levelSize ≤ s.drv.nreg.toNat := Nat.shiftRight_le _ _
  have hpos := Nat.one_le_two_pow (n := n)
  unfold State.levelTasks
  split <;> omega

/-- The level below lives in the other bank (R153). -/
theorem State.LoneRun.sourceLevel_bank (h : s.LoneRun mem n) (hph : s.drv.phase = .parent) :
    s.sourceLevel % 2 ≠ s.levelBank % 2 := by
  obtain ⟨hpos, -⟩ := h.level hph
  simp only [State.sourceLevel, State.levelBank, hph, reduceCtorEq, if_false, if_true]
  omega

/-- A STORE of the task's slot, whatever it writes, keeps what holds along the run. -/
theorem State.LoneRun.scrWrite (h : s.LoneRun mem n) (hp : s.drv.phase ≠ .root) {b : Nat} (hb : b % 2 = s.levelBank % 2)
    (cv : CVal) : (s.scrWrite b (s.seat.task s.drv.phase) cv).LoneRun mem n := by
  have hstored := h.stored.scrWrite (b := b) (.inr le_rfl) cv
  have hsource (hleaf : s.drv.phase ≠ .leaf) := by
    have hph : s.drv.phase = .parent := by cases hd : s.drv.phase <;> simp_all [h.active]
    exact (h.source hleaf).scrWrite (i := s.seat.task s.drv.phase) (.inl (hb ▸ h.sourceLevel_bank hph)) cv
  rw [State.scrWrite_eq] at hstored hsource ⊢
  exact ⟨⟨h.config.sizes, h.config.romFixed, h.config.inMem, h.config.alone, h.config.works, h.config.status,
    h.config.nreg, h.config.logn⟩, h.active, h.level, h.inLevel, hsource, hstored, h.computes⟩

/-- What the configuration asks of the driver is NREG and LOGN. -/
theorem State.LoneConfig.withDriver (h : s.LoneConfig mem n) {d : Driver} (hnreg : d.nreg = s.drv.nreg)
    (hlogn : d.logn = s.drv.logn) : { s with drv := d }.LoneConfig mem n :=
  ⟨h.sizes, h.romFixed, h.inMem, h.alone, h.works, h.status, hnreg ▸ h.nreg, hlogn ▸ h.logn⟩

theorem State.afterLeaf_alone (h : s.team.parked = []) :
    s.afterLeaf = { s with drv := { s.drv with bj := 0 }.afterLeafStore } := by
  rw [State.afterLeaf, State.afterStore, h]
  rfl

theorem State.afterParent_alone (h : s.team.parked = []) : s.afterParent = { s with drv := s.drv.afterParentStore } := by
  rw [State.afterParent, State.afterStore, h]
  rfl

/-- After a chunk that is not the last the next one begins (R158). -/
theorem State.LoneRun.nextChunk (h : s.LoneRun mem n) (hph : s.drv.phase = .leaf) (hsub : s.drv.sub = .store)
    (hmore : s.drv.ci.toNat + 1 < s.drv.nreg.toNat) (hstored : s.Holds mem.read 0 (s.drv.ci.toNat + 1)) :
    s.LoneNext { s with drv := { s.drv with bj := 0, ci := s.drv.ci + 1, sub := .load } } mem n := by
  have hfit := s.drv.nreg.isLt
  have hsucc : (s.drv.ci + 1).toNat = s.drv.ci.toNat + 1 := BitVec.toNat_add_of_lt (by change _ + 1 < _; omega)
  set t := { s with drv := { s.drv with bj := 0, ci := s.drv.ci + 1, sub := .load } }
  have htask : t.seat.task t.drv.phase = s.drv.ci.toNat + 1 := (State.task_leaf (s := t) hph).trans hsucc
  refine ⟨⟨h.config.withDriver rfl rfl, h.active, h.level, ?_, h.source, ?_,
    Lane.computes_of_load rfl (fun _ => rfl) _ _⟩, ?_⟩
  · rw [htask, State.levelTasks, hph]
    exact hmore
  · rw [htask, State.levelBank, hph]
    exact hstored
  · rw [State.stepsLeft_chunkStore hph hsub (h.computes.lastBlock hph hsub), ← hsucc]
    exact congrArg (· + 1) (State.stepsLeft_chunk (s := t) hph rfl rfl (hsucc.trans_lt hmore)).symm

/-- At the first node of a parent level whose source has been stored whole, what was above the source is left. -/
theorem State.LoneConfig.firstNode (h : s.LoneConfig mem n) (hph : s.drv.phase = .parent) (hsub : s.drv.sub = .load)
    (hnode : s.drv.node = 0) (hpos : 1 ≤ s.drv.lvl.toNat) (hlt : s.drv.lvl.toNat < n)
    (hsource : s.Holds mem.read (s.drv.lvl.toNat - 1) (2 ^ (n - (s.drv.lvl.toNat - 1)))) :
    s.LoneRun mem n ∧ s.stepsLeft = stepsAbove (2 ^ (n - (s.drv.lvl.toNat - 1))) := by
  have hpow : 2 ^ (n - (s.drv.lvl.toNat - 1)) = 2 * 2 ^ (n - s.drv.lvl.toNat) := by
    rw [← pow_succ']
    congr 1
    omega
  have hsize := s.levelSize_eq n h.nreg hlt.le
  have htasks : s.levelTasks = 2 ^ (n - s.drv.lvl.toNat) := by rw [State.levelTasks, hph, ← hsize]
  have htask : s.seat.task s.drv.phase = 0 := (State.task_parent hph).trans (congrArg BitVec.toNat hnode)
  have hlevel : s.sourceLevel = s.drv.lvl.toNat - 1 := by simp [State.sourceLevel, hph]
  have hm : 2 ≤ 2 ^ (n - s.drv.lvl.toNat) := Nat.le_self_pow (by omega) 2
  rw [hpow] at hsource ⊢
  exact
    ⟨{ config := h
       active := by simp [hph]
       level := fun _ => ⟨hpos, hlt⟩
       inLevel := by rw [htask, htasks]; omega
       source := fun _ => by rw [hlevel, htasks]; exact hsource
       stored := by rw [htask]; nofun
       computes := Lane.computes_of_load hsub (by simp [hph]) _ _ },
      State.stepsLeft_firstNode hph hsub hnode hsize hm⟩

/-- After the last chunk the first parent level begins (R158). -/
theorem State.LoneRun.afterLeaves (h : s.LoneRun mem n) (hph : s.drv.phase = .leaf) (hsub : s.drv.sub = .store)
    (hlast : s.drv.nreg.toNat = s.drv.ci.toNat + 1) (hstored : s.Holds mem.read 0 (s.drv.ci.toNat + 1)) :
    s.LoneNext { s with drv := { s.drv with bj := 0 }.afterLeaves } mem n := by
  obtain ⟨hn, -⟩ := h.config.sizes
  have hleft : s.stepsLeft = stepsAbove (2 ^ n) + 1 := by
    rw [State.stepsLeft_chunkStore hph hsub (h.computes.lastBlock hph hsub), ← hlast, Nat.sub_self, Nat.mul_zero,
      Nat.zero_add, h.config.nreg]
  rw [← hlast, h.config.nreg] at hstored
  obtain ⟨hrun, hnext⟩ := State.LoneConfig.firstNode (s := { s with drv := { s.drv with bj := 0 }.afterLeaves })
    (h.config.withDriver rfl rfl) rfl rfl rfl le_rfl (by change 1 < n; omega) hstored
  exact ⟨hrun, by rw [hleft, hnext]; rfl⟩

/-- After a node that is not its level's last the next one begins (R160). -/
theorem State.LoneRun.nextNode (h : s.LoneRun mem n) (hph : s.drv.phase = .parent) (hsub : s.drv.sub = .store)
    (hmore : s.drv.node.toNat + 1 < s.drv.nreg.toNat >>> s.drv.lvl.toNat)
    (hstored : s.Holds mem.read s.drv.lvl.toNat (s.drv.node.toNat + 1)) :
    s.LoneNext { s with drv := { s.drv with node := s.drv.node + 1, sub := .load } } mem n := by
  have hfit := s.drv.nreg.isLt
  have hsize : s.drv.nreg.toNat >>> s.drv.lvl.toNat ≤ s.drv.nreg.toNat := Nat.shiftRight_le _ _
  have hsucc : (s.drv.node + 1).toNat = s.drv.node.toNat + 1 := BitVec.toNat_add_of_lt (by change _ + 1 < _; omega)
  set t := { s with drv := { s.drv with node := s.drv.node + 1, sub := .load } }
  have htask : t.seat.task t.drv.phase = s.drv.node.toNat + 1 := (State.task_parent (s := t) hph).trans hsucc
  refine ⟨⟨h.config.withDriver rfl rfl, h.active, h.level, ?_, h.source, ?_,
    Lane.computes_of_load (d := t.drv) rfl (fun hleaf => absurd (hph.symm.trans hleaf) nofun) _ _⟩, ?_⟩
  · rw [htask, State.levelTasks, hph]
    exact hmore
  · rw [htask, State.levelBank, hph]
    exact hstored
  · rw [State.stepsLeft_nodeStore hph hsub, ← hsucc]
    exact congrArg (· + 1) (State.stepsLeft_node (s := t) hph rfl (hsucc.trans_lt hmore)).symm

/-- After the last node of a level below the last the next level begins (R160). -/
theorem State.LoneRun.nextLevel (h : s.LoneRun mem n) (hph : s.drv.phase = .parent) (hmore : s.drv.lvl.toNat + 1 < n)
    (hleft : s.stepsLeft = stepsAbove (2 ^ (n - s.drv.lvl.toNat)) + 1)
    (hstored : s.Holds mem.read s.drv.lvl.toNat (2 ^ (n - s.drv.lvl.toNat))) :
    s.LoneNext { s with drv := { s.drv with lvl := s.drv.lvl + 1, node := 0, sub := .load } } mem n := by
  have hfit := s.drv.logn.isLt
  rw [h.config.logn] at hfit
  have hlvl : (s.drv.lvl + 1).toNat = s.drv.lvl.toNat + 1 := BitVec.toNat_add_of_lt (by change _ + 1 < _; omega)
  have hbelow : (s.drv.lvl + 1).toNat - 1 = s.drv.lvl.toNat := by omega
  rw [← hbelow] at hstored hleft
  obtain ⟨hrun, hnext⟩ := State.LoneConfig.firstNode
    (s := { s with drv := { s.drv with lvl := s.drv.lvl + 1, node := 0, sub := .load } })
    (h.config.withDriver rfl rfl) hph rfl rfl (by change 1 ≤ (s.drv.lvl + 1).toNat; omega) (hlvl.trans_lt hmore) hstored
  exact ⟨hrun, by rw [hleft, hnext]⟩

/-- After the last node of the last level the root begins (R160). -/
theorem State.LoneRun.beginRoot (h : s.LoneRun mem n) (hlvl : s.drv.lvl.toNat = n - 1)
    (hleft : s.stepsLeft = stepsAbove (2 ^ (n - s.drv.lvl.toNat)) + 1)
    (hstored : s.Holds mem.read s.drv.lvl.toNat (2 ^ (n - s.drv.lvl.toNat))) :
    s.LoneNext { s with drv := { s.drv with phase := .root, sub := .load } } mem n := by
  obtain ⟨hn, -⟩ := h.config.sizes
  rw [hlvl, show n - (n - 1) = 1 by omega] at hstored hleft
  rw [← h.config.logn] at hstored
  exact
    ⟨{ config := h.config.withDriver rfl rfl
       active := nofun
       level := nofun
       inLevel := Nat.one_pos
       source := fun _ => hstored
       stored := nofun
       computes := Lane.computes_of_load (d := { s.drv with phase := .root, sub := .load }) rfl nofun _ _ }, hleft⟩

/-- After a level's last node the level above is at its start, and the level just stored is its source. -/
theorem State.LoneRun.afterLevel (h : s.LoneRun mem n) (hph : s.drv.phase = .parent) (hsub : s.drv.sub = .store)
    (hlast : s.drv.nreg.toNat >>> s.drv.lvl.toNat = s.drv.node.toNat + 1)
    (hstored : s.Holds mem.read s.drv.lvl.toNat (s.drv.node.toNat + 1)) :
    s.LoneNext { s with drv := s.drv.afterLevel } mem n := by
  obtain ⟨-, hlt⟩ := h.level hph
  have hlogn := h.config.logn
  have hsize := s.levelSize_eq n h.config.nreg hlt.le
  have hleft : s.stepsLeft = stepsAbove (2 ^ (n - s.drv.lvl.toNat)) + 1 := by
    rw [State.stepsLeft_nodeStore hph hsub, ← hlast, Nat.sub_self, Nat.mul_zero, Nat.zero_add, ← hsize, State.levelSize]
  rw [← hlast, ← State.levelSize, hsize] at hstored
  unfold Driver.afterLevel
  split
  · next hmore => exact h.nextLevel hph (hlogn ▸ hmore) hleft hstored
  · next hend => exact h.beginRoot (by omega) hleft hstored

theorem State.LoneRun.afterLeaf (h : s.LoneRun mem n) (hph : s.drv.phase = .leaf) (hsub : s.drv.sub = .store)
    (hstored : s.Holds mem.read 0 (s.drv.ci.toNat + 1)) : s.LoneNext s.afterLeaf mem n := by
  have hlt := h.ci_lt hph
  rw [State.afterLeaf_alone h.config.alone, Driver.afterLeafStore]
  split
  · next hmore => exact h.nextChunk hph hsub hmore hstored
  · next hlast => exact h.afterLeaves hph hsub (le_antisymm (not_lt.mp hlast) hlt) hstored

theorem State.LoneRun.afterParent (h : s.LoneRun mem n) (hph : s.drv.phase = .parent) (hsub : s.drv.sub = .store)
    (hstored : s.Holds mem.read s.drv.lvl.toNat (s.drv.node.toNat + 1)) : s.LoneNext s.afterParent mem n := by
  have hlt := h.node_lt hph
  rw [State.afterParent_alone h.config.alone, Driver.afterParentStore]
  split
  · next hmore => exact h.nextNode hph hsub hmore hstored
  · next hlast => exact h.afterLevel hph hsub (le_antisymm (not_lt.mp hlast) hlt) hstored

/-- A STORE of the task's slot takes no step of its own. -/
theorem State.LoneNext.of_scrWrite {t : State} {b k : Nat} {cv : CVal} (h : (s.scrWrite b k cv).LoneNext t mem n) :
    s.LoneNext t mem n :=
  ⟨h.1, by rw [← h.2, State.stepsLeft, State.stepsLeft, State.scrWrite_drv, State.scrWrite_lane]⟩

theorem State.LoneRun.leafStore (h : s.LoneRun mem n) (hph : s.drv.phase = .leaf) (hsub : s.drv.sub = .store) :
    ∃ t, leafStore s = .next t ∧ s.LoneNext t mem n := by
  have htask := State.task_leaf hph
  have hbank : s.levelBank = 0 := by simp [State.levelBank, hph]
  have hin : s.drv.ci.toNat < s.nMax := (htask ▸ h.inLevel).trans_le h.levelTasks_le
  have hcv : s.lane.cv = levelCv mem.read 0 s.drv.ci.toNat :=
    (h.computes.result hsub).trans (Driver.result_lastBlock hph (h.computes.lastBlock hph hsub) _)
  have hrun := h.scrWrite (by simp [hph]) (b := 0) (by rw [hbank]) s.lane.cv
  have hstored := h.stored
  rw [htask] at hrun hstored
  rw [hbank] at hstored
  refine ⟨_, if_pos hin, (hrun.afterLeaf (by simpa using hph) (by simpa using hsub) ?_).of_scrWrite⟩
  rw [State.scrWrite_drv]
  exact hstored.store rfl hcv

theorem State.LoneRun.parentStore (h : s.LoneRun mem n) (hph : s.drv.phase = .parent) (hsub : s.drv.sub = .store) :
    ∃ t, parentStore s = .next t ∧ s.LoneNext t mem n := by
  have htask := State.task_parent hph
  have hbank : s.levelBank = s.drv.lvl.toNat := by simp [State.levelBank, hph]
  have hin : s.drv.node.toNat < s.nMax := (htask ▸ h.inLevel).trans_le h.levelTasks_le
  have hcv : s.lane.cv = levelCv mem.read s.drv.lvl.toNat s.drv.node.toNat :=
    (h.computes.result hsub).trans (Driver.result_parent hph (h.level hph).1 _)
  have hrun := h.scrWrite (by simp [hph]) (b := s.drv.lvl.toNat % 2) (by rw [hbank, Nat.mod_mod]) s.lane.cv
  have hstored := h.stored
  rw [htask] at hrun hstored
  rw [hbank] at hstored
  refine ⟨_, if_pos hin, (hrun.afterParent (by simpa using hph) (by simpa using hsub) ?_).of_scrWrite⟩
  rw [State.scrWrite_drv]
  exact hstored.store (Nat.mod_mod _ _) hcv

/-- EXPORT ends the run: it is its last step (R162). -/
theorem State.LoneRun.exportDigest (h : s.LoneRun mem n) (hph : s.drv.phase = .root) (hsub : s.drv.sub = .store) :
    s.stepsLeft = 1 ∧ ∃ t, exportDigest s = .next t ∧ t.LoneEnd mem n := by
  have hcv : s.lane.cv = rootCv mem.read n := by
    rw [h.computes.result hsub, Driver.result_root hph, h.config.logn]
  refine ⟨?_, _, rfl, rfl, rfl, hcv, congrArg digestFromCv hcv, h.config.inMem⟩
  rw [State.stepsLeft, Driver.stepsAfter_root hph, hsub]
  rfl

/-- A core step of a run goes on with it, with one step less left, or is its last and ends it. -/
theorem State.LoneRun.coreStep (h : s.LoneRun mem n) :
    ∃ t, coreStep s = .next t ∧ (s.LoneNext t mem n ∨ s.stepsLeft = 1 ∧ t.LoneEnd mem n) := by
  have goesOn {r : Res} (hr : ∃ t, r = .next t ∧ s.LoneNext t mem n) :
      ∃ t, r = .next t ∧ (s.LoneNext t mem n ∨ s.stepsLeft = 1 ∧ t.LoneEnd mem n) :=
    hr.imp fun _ => .imp_right .inl
  rw [h.coreStep_eq, fsmStep]
  cases hph : s.drv.phase with
  | idle => exact absurd hph h.active
  | leaf =>
    cases hsub : s.drv.sub with
    | load => exact goesOn (h.leafLoad hph hsub)
    | run => exact goesOn (h.runStep hsub)
    | store => exact goesOn (h.leafStore hph hsub)
  | parent =>
    cases hsub : s.drv.sub with
    | load => exact goesOn (h.parentLoad hph hsub)
    | run => exact goesOn (h.runStep hsub)
    | store => exact goesOn (h.parentStore hph hsub)
  | root =>
    cases hsub : s.drv.sub with
    | load => exact goesOn (h.rootLoad hph hsub)
    | run => exact goesOn (h.runStep hsub)
    | store =>
      obtain ⟨hlast, t, ht, hend⟩ := h.exportDigest hph hsub
      exact ⟨t, ht, .inr ⟨hlast, hend⟩⟩

end

end Sys2Proof.Machine
end

section
/-! SUPPORT. A run under a schedule of host requests (20_memory.md R61): the host leaves the run alone while BUSY, and takes
no event off the inbox. -/

namespace Sys2Proof.Machine

/-! ### The next event -/

theorem coreRun_succ (M : Host.Core) {s t : M.State} (h : M.step s = .next t) (k : Nat) : M.run (k + 1) s = M.run k t := by
  rw [Host.Core.run, h]

theorem run_succ {s t : State} (h : step s = .next t) (k : Nat) : run (k + 1) s = run k t := coreRun_succ core h k

theorem step_of_coreTurn {s : State} {rest : List Event} (h : s.port.inbox = .coreTurn :: rest) :
    step s = coreStep (s.withInbox rest) := by
  rw [step, nextEvent, h]
  rfl

theorem step_of_host {s : State} {r : HostRequest} {rest : List Event} (h : s.port.inbox = .host r :: rest) :
    step s = hostStep r (s.withInbox rest) := by
  rw [step, nextEvent, h]
  rfl

/-! ### The port in a turn of a lane and in a host request -/

theorem coreStep_port {s t : State} (h : coreStep s = .next t) : t.port = s.port := by
  rw [coreStep_eq_laneTurn] at h
  rcases laneTurn_move h with ⟨-, rfl⟩ | ⟨-, hmove⟩
  · rfl
  · exact (congrArg State.port hmove.frame :)

theorem exec_inbox {i : Instr} {s t : State} (hhost : i.isHost = true) (h : exec i s = .next t) :
    t.port.inbox = s.port.inbox := by
  rcases exec_host_cases hhost h with ⟨_, -, rfl⟩ | ⟨_, _, -, -, -, rfl⟩ | ⟨hinbox, -⟩
  · exact (congrArg (fun u => u.port.inbox) s.hashCommand_eq :)
  · rfl
  · exact hinbox

/-- A host request answers a next state, and leaves the events to come alone. -/
theorem hostStep_next (r : HostRequest) (s : State) : ∃ t, hostStep r s = .next t ∧ t.port.inbox = s.port.inbox := by
  rcases hostStep_cases r s with ⟨why, heq⟩ | ⟨_, _, i, hd, heq⟩
  · exact ⟨_, heq, rfl⟩
  · obtain ⟨t, ht⟩ := exec_next i s
    exact ⟨t, heq.trans ht, exec_inbox (decodeHost_isHost hd) ht⟩

/-- While BUSY a host request changes at most LEN and the port. -/
theorem State.HostMove.eq_of_busy {s t : State} {r : HostRequest} (h : s.HostMove r t) (hb : s.busy = true) :
    t = { s with lenLo := t.lenLo, lenHi := t.lenHi, port := t.port } := by
  cases h with
  | hash =>
    rw [State.hashCommand, if_pos hb]
    rfl
  | wrIn a v _ hidle => simp [hb] at hidle
  | other => rfl

/-! ### A schedule with one lane -/

section
variable {s : State} {mem : Memory} {n : Nat}

/-- The run does not depend on LEN and the port. -/
theorem State.LoneRun.withHost (h : s.LoneRun mem n) (lo hi : Word) (port : Port) :
    { s with lenLo := lo, lenHi := hi, port := port }.LoneRun mem n :=
  ⟨⟨h.config.sizes, h.config.romFixed, h.config.inMem, h.config.alone, h.config.works, h.config.status, h.config.nreg,
    h.config.logn⟩, h.active, h.level, h.inLevel, h.source, h.stored, h.computes⟩

theorem State.LoneRun.withInbox (h : s.LoneRun mem n) (inbox : List Event) : (s.withInbox inbox).LoneRun mem n :=
  h.withHost s.lenLo s.lenHi { s.port with inbox := inbox }

theorem State.stepsLeft_withInbox (s : State) (inbox : List Event) : (s.withInbox inbox).stepsLeft = s.stepsLeft := rfl

/-- A host request takes no step of the run. -/
theorem State.LoneRun.hostStep (h : s.LoneRun mem n) (r : HostRequest) : ∃ t, hostStep r s = .next t ∧
    t.LoneRun mem n ∧ t.stepsLeft = s.stepsLeft ∧ t.port.inbox = s.port.inbox := by
  obtain ⟨t, ht, hinbox⟩ := hostStep_next r s
  have hbusy : s.busy = true := by rw [State.busy, h.config.status]; rfl
  have heq := (hostStep_move ht).eq_of_busy hbusy
  refine ⟨t, ht, heq ▸ h.withHost _ _ _, ?_, hinbox⟩
  rw [heq]
  rfl

/-- The state HASH leaves begins a run of as many steps as R166 counts. -/
theorem State.RunStart.loneRun (h : s.RunStart n) (hlanes : s.lanes = 1) :
    s.LoneRun s.inMem n ∧ s.stepsLeft = runSteps (2 ^ n) := by
  have halone : s.team.parked = [] := List.eq_nil_of_length_eq_zero (Nat.succ.inj hlanes)
  have hci : s.drv.ci.toNat = 0 := congrArg BitVec.toNat h.ci
  have hpos : 0 < s.drv.nreg.toNat := h.nreg ▸ Nat.two_pow_pos n
  have htask := (State.task_leaf h.phase).trans hci
  have hworks : s.team.waiting = false := by
    rw [h.team, Team.fresh, halone]
    rfl
  refine ⟨?_, ?_⟩
  · exact
      { config := ⟨h.sizes, h.romFixed, rfl, halone, hworks, h.status, h.nreg, h.logn⟩
        active := by simp [h.phase]
        level := by simp [h.phase]
        inLevel := by rw [htask, State.levelTasks, h.phase]; exact hpos
        source := absurd h.phase
        stored := by rw [htask]; nofun
        computes := Lane.computes_of_load h.sub (fun _ => h.bj) _ _ }
  · rw [State.stepsLeft_chunk h.phase h.sub h.bj (hci.trans_lt hpos), hci, h.nreg]
    exact (Nat.add_assoc _ _ _).symm

/-- Under a schedule of host requests and as many core turns as the run has steps left, the last event being a core turn, the
run ends with the last event. -/
theorem State.LoneRun.run_events (h : s.LoneRun mem n) (events : List Event) (hinbox : s.port.inbox = events ++ [.coreTurn])
    (hevents : ∀ e ∈ events, e ≠ .reset ∧ ∀ lane pick, e ≠ .laneTurn lane pick)
    (hcount : events.count .coreTurn + 1 = s.stepsLeft) :
    ∃ t, run (events.length + 1) s = .next t ∧ t.LoneEnd mem n := by
  induction events generalizing s with
  | nil =>
    obtain ⟨t, ht, ⟨-, hleft⟩ | ⟨-, hend⟩⟩ := (h.withInbox []).coreStep
    · have hpos := t.stepsLeft_pos
      rw [State.stepsLeft_withInbox] at hleft
      rw [List.count_nil] at hcount
      omega
    · exact ⟨t, run_succ ((step_of_coreTurn hinbox).trans ht) 0, hend⟩
  | cons e rest ih =>
    obtain ⟨hfirst, hrest⟩ := List.forall_mem_cons.mp hevents
    have hrun := h.withInbox (rest ++ [.coreTurn])
    cases e with
    | reset => exact absurd rfl hfirst.1
    | laneTurn lane pick => exact absurd rfl (hfirst.2 lane pick)
    | host r =>
      rw [List.count_cons_of_ne (by simp)] at hcount
      obtain ⟨u, hu, hrun', hleft, hport⟩ := hrun.hostStep r
      rw [State.stepsLeft_withInbox] at hleft
      obtain ⟨t, ht, hend⟩ := ih hrun' hport hrest (hcount.trans hleft.symm)
      exact ⟨t, (run_succ ((step_of_host hinbox).trans hu) _).trans ht, hend⟩
    | coreTurn =>
      rw [List.count_cons_self] at hcount
      obtain ⟨u, hu, ⟨hrun', hleft⟩ | ⟨hlast, -⟩⟩ := hrun.coreStep
      · rw [State.stepsLeft_withInbox] at hleft
        have hport := congrArg Port.inbox (coreStep_port hu)
        obtain ⟨t, ht, hend⟩ := ih hrun' hport hrest (by omega)
        exact ⟨t, (run_succ ((step_of_coreTurn hinbox).trans hu) _).trans ht, hend⟩
      · rw [State.stepsLeft_withInbox] at hlast
        omega

end

/-- Settles O32: each core turn takes one step of the run and a host request none, so the last event is EXPORT. -/
theorem scheduledRunReachesDigest : Obligations.ScheduledRunReachesDigest := by
  intro s n events hstart hlanes hinbox hevents hcount
  obtain ⟨hrun, hleft⟩ := hstart.loneRun hlanes
  obtain ⟨t, ht, hend⟩ := hrun.run_events events hinbox hevents (hcount.trans hleft.symm)
  exact ⟨t, ht, hend.dout, hend.status, hend.idle, hend.inMem⟩

end Sys2Proof.Machine
end

section
/-! SUPPORT. The decoder and the encoder agree both ways, and the opcode map by match and mask (30_encoding.md R70 to
R77). -/

namespace Sys2Proof.Machine

/-! ### Words cut in two -/

section
variable {v n : Nat}

theorem append_inj_iff {a a' : BitVec v} {b b' : BitVec n} : a ++ b = a' ++ b' ↔ a = a' ∧ b = b' := by
  refine ⟨fun h => ⟨?_, ?_⟩, fun ⟨ha, hb⟩ => ha ▸ hb ▸ rfl⟩
  · simpa only [BitVec.extractLsb'_append_eq_left] using congrArg (BitVec.extractLsb' n v) h
  · simpa only [BitVec.extractLsb'_append_eq_right] using congrArg (BitVec.extractLsb' 0 n) h

/-- A match under a mask is a match of the high part and one of the low part. -/
theorem and_append_eq_iff {w : BitVec (v + n)} {m k : BitVec v} {d e : BitVec n} :
    w &&& (m ++ d) = k ++ e ↔ w.extractLsb' n v &&& m = k ∧ w.extractLsb' 0 n &&& d = e := by
  conv_lhs => rw [← BitVec.extractLsb'_append_extractLsb' (x := w), BitVec.and_append]
  exact append_inj_iff

end

/-! ### Uop words (R70 to R72) -/

section
variable {u : BitVec 32} {i j : Instr}

/-- The fields of format U0, OP below its 28 reserved bits, make the word up. -/
theorem uopWord_U0 (u : BitVec 32) : u.extractLsb' 4 28 ++ u.extractLsb' 0 4 = u :=
  BitVec.extractLsb'_append_extractLsb' (w := 28)

/-- The eight fields of format UG make the word up. -/
theorem uopWord_UG (u : BitVec 32) :
    u.extractLsb' 28 4 ++ u.extractLsb' 24 4 ++ u.extractLsb' 20 4 ++ u.extractLsb' 16 4 ++ u.extractLsb' 12 4 ++
      u.extractLsb' 8 4 ++ u.extractLsb' 4 4 ++ u.extractLsb' 0 4 = u := by
  iterate 7 rw [BitVec.extractLsb'_append_extractLsb'_eq_extractLsb' (by rfl)]
  exact BitVec.extractLsb'_eq_self

theorem decodeU0_ok (h : decodeU0 u j = .ok i) : u.extractLsb' 4 28 = 0 ∧ j = i := by
  unfold decodeU0 at h
  split at h
  · next hrsvd => exact ⟨hrsvd, Except.ok.inj h⟩
  · cases h

theorem decodeUG_ok (h : decodeUG u = .ok i) : u.extractLsb' 28 4 = 0 ∧
    .g (u.extractLsb' 4 4) (u.extractLsb' 8 4) (u.extractLsb' 12 4) (u.extractLsb' 16 4) (u.extractLsb' 20 4)
      (u.extractLsb' 24 4) = i := by
  unfold decodeUG at h
  split at h
  · next hrsvd => exact ⟨hrsvd, Except.ok.inj h⟩
  · cases h

/-- A word of format U0 is its OP. -/
theorem decodeU0_word {op : BitVec 4} (hop : u.extractLsb' 0 4 = op) (h : decodeU0 u j = .ok i) :
    u = 0#28 ++ op ∧ j = i := by
  obtain ⟨hrsvd, hi⟩ := decodeU0_ok h
  rw [← uopWord_U0 u, hrsvd, hop]
  exact ⟨rfl, hi⟩

/-- A word that is a uop is the uop's code. -/
theorem encode_decodeUop (h : decodeUop u = .ok i) : encode i = .uop u := by
  unfold decodeUop at h
  split at h
  case h_1 hop => obtain ⟨rfl, rfl⟩ := decodeU0_word (op := 1) (BitVec.eq_of_toNat_eq hop) h; rfl
  case h_3 hop => obtain ⟨rfl, rfl⟩ := decodeU0_word (op := 3) (BitVec.eq_of_toNat_eq hop) h; rfl
  case h_4 hop => obtain ⟨rfl, rfl⟩ := decodeU0_word (op := 4) (BitVec.eq_of_toNat_eq hop) h; rfl
  case h_2 hop =>
    obtain ⟨hrsvd, rfl⟩ := decodeUG_ok h
    have hop : u.extractLsb' 0 4 = 2#4 := BitVec.eq_of_toNat_eq hop
    have hword := uopWord_UG u
    rw [hrsvd, hop] at hword
    exact congrArg Code.uop hword
  case h_5 => cases h

theorem decodeUop_wellFormed (h : decodeUop u = .ok i) : i.wellFormed = true := by
  rcases decodeUop_cases h with rfl | rfl | rfl | rfl <;> rfl

/-- The word of format UG holds its six fields. -/
theorem decodeUop_gWord (a b c d x y : BitVec 4) :
    decodeUop (0#4 ++ y ++ x ++ d ++ c ++ b ++ a ++ 2#4) = .ok (.g a b c d x y) := by
  simp (disch := decide) only [decodeUop, decodeUG, BitVec.extractLsb'_append_eq_of_le,
    BitVec.extractLsb'_append_eq_of_add_le, Nat.reduceSub, BitVec.extractLsb'_eq_self]
  rfl

/-- The row of G: OP is 2 and bits 31:28 are 0 (R77). -/
theorem decodeUop_of_gMask (h : u &&& 0xF000000F = 0x00000002) :
    decodeUop u = .ok (.g (u.extractLsb' 4 4) (u.extractLsb' 8 4) (u.extractLsb' 12 4) (u.extractLsb' 16 4)
      (u.extractLsb' 20 4) (u.extractLsb' 24 4)) := by
  have hop : u.extractLsb' 0 4 &&& 0xF = 2 := by
    rw [← show (0xF000000F : BitVec 32).extractLsb' 0 4 = 0xF by decide, ← BitVec.extractLsb'_and, h]
    decide
  have hrsvd : u.extractLsb' 28 4 &&& 0xF = 0 := by
    rw [← show (0xF000000F : BitVec 32).extractLsb' 28 4 = 0xF by decide, ← BitVec.extractLsb'_and, h]
    decide
  rw [show (0xF : BitVec 4) = BitVec.allOnes 4 by decide, BitVec.and_allOnes] at hop hrsvd
  simp only [decodeUop, decodeUG, hop, hrsvd]
  rfl

end

/-! ### The fields of a host transaction word (R73) -/

section
variable (dir : BitVec 1) (space : BitVec 2) (index : BitVec 4) (data : BitVec 32)

theorem hostWord_dir : (hostWord dir space index data).extractLsb' 39 1 = dir := by
  simp (disch := decide) only [hostWord, BitVec.extractLsb'_append_eq_of_le, Nat.reduceSub, BitVec.extractLsb'_eq_self]

theorem hostWord_rsvd : (hostWord dir space index data).extractLsb' 36 1 = 0 := by
  simp (disch := decide) only [hostWord, BitVec.extractLsb'_append_eq_of_le, BitVec.extractLsb'_append_eq_of_add_le,
    Nat.reduceSub, BitVec.extractLsb'_eq_self]
  rfl

theorem hostWord_index : (hostWord dir space index data).extractLsb' 32 4 = index := by
  simp (disch := decide) only [hostWord, BitVec.extractLsb'_append_eq_of_le, BitVec.extractLsb'_append_eq_of_add_le,
    Nat.reduceSub, BitVec.extractLsb'_eq_self]

theorem hostWord_data : (hostWord dir space index data).extractLsb' 0 32 = data :=
  BitVec.extractLsb'_append_eq_right

end

/-! ### Host transactions of an admitted key (R73, R75) -/

section
variable {dir : BitVec 1} {space : BitVec 2} {index : BitVec 4} {data : BitVec 32} {addr : Nat}

/-- A key is admitted where SPACE is not 11 and, outside the CSR space, INDEX is 0 (R75). -/
theorem decodeHost_hostWord (hspace : space ≠ 3) (hindex : space ≠ 0 → index = 0) :
    decodeHost (hostWord dir space index data) addr = .ok (decodeHostKey dir space index data addr) := by
  have hkey : hostKeyReasons space 0 index = [] := by simpa [hostKeyReasons] using ⟨hspace, hindex⟩
  simp only [decodeHost, hostWord_dir, hostWord_space, hostWord_rsvd, hostWord_index, hostWord_data, hkey]

/-- SPACE = 11 is refused (R75). -/
theorem decodeHost_space {w : BitVec 40} {i : Instr} (h : decodeHost w addr = .ok i) : w.extractLsb' 37 2 ≠ 3 := by
  intro hspace
  simp [decodeHost, hostKeyReasons, hspace] at h

theorem decode_hostWord (hspace : space ≠ 3) (hindex : space ≠ 0 → index = 0) :
    decode (.host (hostWord dir space index data) addr) = .ok (decodeHostKey dir space index data addr) := by
  rw [decode, decodeHost_hostWord hspace hindex]
  rfl

/-- The CSR space admits every INDEX. -/
theorem decode_csrWord : decode (.host (hostWord dir 0 index data) addr) = .ok (decodeHostKey dir 0 index data addr) :=
  decode_hostWord (by decide) (absurd rfl)

/-! ### The unmapped CSRs (R77) -/

theorem index_cases (index : BitVec 4) : 8 ≤ index.toNat ∨ index = 0 ∨ index = 1 ∨ index = 2 ∨ index = 3 ∨ index = 4 ∨
    index = 5 ∨ index = 6 ∨ index = 7 := by
  revert index
  decide

theorem decodeCsrRead_6to7 (h : index = 6 ∨ index = 7) : decodeCsrRead index data = .rdCsrRsvd6to7 index data := by
  rcases h with rfl | rfl <;> rfl

theorem decodeCsrWrite_6to7 (h : index = 6 ∨ index = 7) : decodeCsrWrite index data = .wrCsrRsvd6to7 index data := by
  rcases h with rfl | rfl <;> rfl

theorem decodeCsrRead_8to15 (h : 8 ≤ index.toNat) : decodeCsrRead index data = .rdCsrRsvd8to15 index data := by
  unfold decodeCsrRead
  split
  case h_9 => rfl
  all_goals omega

theorem decodeCsrWrite_8to15 (h : 8 ≤ index.toNat) : decodeCsrWrite index data = .wrCsrRsvd8to15 index data := by
  unfold decodeCsrWrite
  split
  case h_9 => rfl
  all_goals omega

/-! ### A CSR write of index 0 (R74) -/

theorem decodeCsrWrite_hash (h : data.getLsbD 0 = true) : decodeCsrWrite 0 data = .hash data := if_pos h

theorem decodeCsrWrite_ctrlNop (h : data.getLsbD 0 = false) : decodeCsrWrite 0 data = .ctrlNop data :=
  if_neg (Bool.eq_false_iff.mp h)

end

/-! ### Decoding after encoding -/

/-- Settles O1: a code holds its fields, and the decoder's choices by OP, SPACE, DIR and INDEX lead back to its row. -/
theorem decodeEncodeRoundTrip : Obligations.DecodeEncodeRoundTrip := by
  intro i hwf
  cases i with
  | init | perm | final => rfl
  | g a b c d x y => exact congrArg (Except.mapError DecodeError.illegalUop) (decodeUop_gWord a b c d x y)
  | hash data => exact decode_csrWord.trans (congrArg _ (decodeCsrWrite_hash hwf))
  | ctrlNop data => exact decode_csrWord.trans (congrArg _ (decodeCsrWrite_ctrlNop (by simpa [Instr.wellFormed] using hwf)))
  | rdCsrRsvd6to7 index data =>
    exact decode_csrWord.trans (congrArg _ (decodeCsrRead_6to7 (by simpa [Instr.wellFormed] using hwf)))
  | wrCsrRsvd6to7 index data =>
    exact decode_csrWord.trans (congrArg _ (decodeCsrWrite_6to7 (by simpa [Instr.wellFormed] using hwf)))
  | rdCsrRsvd8to15 index data =>
    exact decode_csrWord.trans (congrArg _ (decodeCsrRead_8to15 (of_decide_eq_true hwf)))
  | wrCsrRsvd8to15 index data =>
    exact decode_csrWord.trans (congrArg _ (decodeCsrWrite_8to15 (of_decide_eq_true hwf)))
  | rdCtrl | rdStatus | wrStatus | wrLenLo | wrLenHi | rdLenLo | rdLenHi | rdCaps | wrCaps | rdCsrRsvd5 | wrCsrRsvd5 =>
    exact decode_csrWord
  | wrIn | rdIn | rdDout | wrDout => exact decode_hostWord (by decide) fun _ => rfl

/-! ### Encoding after decoding -/

theorem encode_decodeCsrRead (index : BitVec 4) (data : BitVec 32) :
    (decodeCsrRead index data).wellFormed = true ∧ encode (decodeCsrRead index data) = .host (hostWord 0 0 index data) 0 := by
  rcases index_cases index with hrsvd | rfl | rfl | rfl | rfl | rfl | rfl | rfl | rfl
  · exact decodeCsrRead_8to15 hrsvd ▸ ⟨decide_eq_true hrsvd, rfl⟩
  all_goals exact ⟨rfl, rfl⟩

theorem encode_decodeCsrWrite (index : BitVec 4) (data : BitVec 32) :
    (decodeCsrWrite index data).wellFormed = true ∧
      encode (decodeCsrWrite index data) = .host (hostWord 1 0 index data) 0 := by
  rcases index_cases index with hrsvd | rfl | rfl | rfl | rfl | rfl | rfl | rfl | rfl
  · exact decodeCsrWrite_8to15 hrsvd ▸ ⟨decide_eq_true hrsvd, rfl⟩
  · cases hbit : data.getLsbD 0 with
    | true => exact decodeCsrWrite_hash hbit ▸ ⟨hbit, rfl⟩
    | false => exact decodeCsrWrite_ctrlNop hbit ▸ ⟨congrArg not hbit, rfl⟩
  all_goals exact ⟨rfl, rfl⟩

/-- The row of an admitted key has that key's word; a CSR transaction carries ADDR 0. -/
theorem encode_decodeHostKey {dir : BitVec 1} {space : BitVec 2} {index : BitVec 4} {data : BitVec 32} {addr : Nat}
    (hspace : space ≠ 3) (hindex : space ≠ 0 → index = 0) :
    (decodeHostKey dir space index data addr).wellFormed = true ∧
      encode (decodeHostKey dir space index data addr) =
        .host (hostWord dir space index data) (if space = 0 then 0 else addr) := by
  have hdirs : dir = 0 ∨ dir = 1 := by revert dir; decide
  have hspaces : space = 0 ∨ space = 1 ∨ space = 2 := by clear hindex; revert space; decide
  rcases hspaces with rfl | rfl | rfl
  · rcases hdirs with rfl | rfl
    · exact encode_decodeCsrRead index data
    · exact encode_decodeCsrWrite index data
  all_goals
    obtain rfl := hindex (by decide)
    rcases hdirs with rfl | rfl <;> exact ⟨rfl, rfl⟩

theorem encode_decodeHost {w : BitVec 40} {addr : Nat} {i : Instr} (h : decodeHost w addr = .ok i) :
    i.wellFormed = true ∧ encode i = .host w (if w.extractLsb' 37 2 = 0 then 0 else addr) := by
  obtain ⟨hrsvd, hindex, rfl⟩ := decodeHost_ok h
  have hkey := encode_decodeHostKey (dir := w.extractLsb' 39 1) (data := w.extractLsb' 0 32) (addr := addr)
    (decodeHost_space h) hindex
  rwa [hostWord_extract hrsvd] at hkey

theorem mapError_ok {ε δ α : Type} {f : ε → δ} {x : Except ε α} {a : α} (h : x.mapError f = .ok a) : x = .ok a := by
  cases x with
  | ok b => exact congrArg _ (Except.ok.inj h)
  | error e => cases h

/-- Settles O2: a word that decodes is made up of the fields the decoder read. -/
theorem encodeDecodeRoundTrip : Obligations.EncodeDecodeRoundTrip :=
  ⟨fun _ _ h => ⟨decodeUop_wellFormed (mapError_ok h), encode_decodeUop (mapError_ok h)⟩,
    fun _ _ _ h => encode_decodeHost (mapError_ok h)⟩

/-! ### The opcode map (R77) -/

section
variable {w : BitVec 40} {dir : BitVec 1} {space : BitVec 2} {m k : BitVec 4} {d e : BitVec 32} {addr : Nat}

/-- A row's mask keeps DIR, SPACE and the reserved bit whole, `m` of INDEX and `d` of DATA32: a word with the row's match is
a host transaction word of the row's DIR and SPACE whose INDEX and DATA32 match under `m` and `d`. -/
theorem hostWord_of_mask (h : w &&& (0xF#4 ++ m ++ d) = hostWord dir space k e) :
    ∃ index data, w = hostWord dir space index data ∧ index &&& m = k ∧ data &&& d = e := by
  obtain ⟨hkey, hdata⟩ := (and_append_eq_iff (v := 8) (n := 32)).mp h
  obtain ⟨hhigh, hindex⟩ := (and_append_eq_iff (v := 4) (n := 4)).mp hkey
  rw [show (0xF#4) = BitVec.allOnes 4 from rfl, BitVec.and_allOnes] at hhigh
  refine ⟨_, _, ?_, hindex, hdata⟩
  rw [hostWord, ← hhigh]
  exact (congrArg (· ++ w.extractLsb' 0 32) BitVec.extractLsb'_append_extractLsb').trans
    (BitVec.extractLsb'_append_extractLsb' (w := 8)) |>.symm

/-- A row of a full key: the mask keeps the whole key and nothing of DATA32. -/
theorem decodeHost_of_key (dir : BitVec 1) (space : BitVec 2) (k : BitVec 4)
    (hspace : space ≠ 3 := by decide) (hindex : space ≠ 0 → k = 0 := by decide)
    (h : w &&& 0xFF00000000 = hostWord dir space k 0) :
    decodeHost w addr = .ok (decodeHostKey dir space k (w.extractLsb' 0 32) addr) := by
  obtain ⟨index, data, rfl, hk, -⟩ := hostWord_of_mask (m := BitVec.allOnes 4) (d := 0) h
  obtain rfl : index = k := BitVec.and_allOnes.symm.trans hk
  rw [decodeHost_hostWord hspace hindex, hostWord_data]

/-- A row of a CSR key: the mask keeps `m` of INDEX and `d` of DATA32. -/
theorem decodeHost_of_csrMask (h : w &&& (0xF#4 ++ m ++ d) = hostWord dir 0 k e) :
    decodeHost w addr = .ok (decodeHostKey dir 0 (w.extractLsb' 32 4) (w.extractLsb' 0 32) addr) ∧
      w.extractLsb' 32 4 &&& m = k ∧ w.extractLsb' 0 32 &&& d = e := by
  obtain ⟨index, data, rfl, hindex, hdata⟩ := hostWord_of_mask h
  rw [hostWord_index, hostWord_data]
  exact ⟨decodeHost_hostWord (by decide) (absurd rfl), hindex, hdata⟩

end

/-- The mask 0xE of the rows 6 to 7 leaves the low bit of INDEX free. -/
theorem index_6to7 {index : BitVec 4} (h : index &&& 0xE = 6) : index = 6 ∨ index = 7 := by
  revert index
  decide

/-- The mask 0x8 of the rows 8 to 15 keeps the top bit of INDEX. -/
theorem index_8to15 {index : BitVec 4} (h : index &&& 0x8 = 8) : 8 ≤ index.toNat := by
  revert index
  decide

/-- Under the mask 1 DATA32 is its low bit. -/
theorem and_one_eq_iff {data : BitVec 32} {b : Bool} : data &&& 1 = (if b then 1 else 0) ↔ data.getLsbD 0 = b := by
  have h : data &&& 1 = (BitVec.ofBool (data.getLsbD 0)).setWidth 32 := BitVec.and_one_eq_setWidth_ofBool_getLsbD
  rw [h]
  cases data.getLsbD 0 <;> cases b <;> decide

section
variable {w : BitVec 40} {addr : Nat}

/-- The rows of key 0x80, whose mask keeps `DATA[0]` too (R74). -/
theorem decodeHost_of_ctrlMask {b : Bool} (h : w &&& 0xFF00000001 = hostWord 1 0 0 (if b then 1 else 0)) :
    decodeHost w addr = .ok (decodeCsrWrite 0 (w.extractLsb' 0 32)) ∧ (w.extractLsb' 0 32).getLsbD 0 = b := by
  obtain ⟨hrow, hindex, hdata⟩ := decodeHost_of_csrMask (addr := addr) (m := BitVec.allOnes 4) (d := 1) h
  rw [BitVec.and_allOnes] at hindex
  rw [hindex] at hrow
  exact ⟨hrow, and_one_eq_iff.mp hdata⟩

theorem decodeHost_of_hashMask (h : w &&& 0xFF00000001 = 0x8000000001) :
    decodeHost w addr = .ok (.hash (w.extractLsb' 0 32)) := by
  obtain ⟨hrow, hbit⟩ := decodeHost_of_ctrlMask (b := true) h
  rw [hrow, decodeCsrWrite_hash hbit]

theorem decodeHost_of_ctrlNopMask (h : w &&& 0xFF00000001 = 0x8000000000) :
    decodeHost w addr = .ok (.ctrlNop (w.extractLsb' 0 32)) := by
  obtain ⟨hrow, hbit⟩ := decodeHost_of_ctrlMask (b := false) h
  rw [hrow, decodeCsrWrite_ctrlNop hbit]

theorem decodeHost_of_rd6to7Mask (h : w &&& 0xFE00000000 = 0x0600000000) :
    decodeHost w addr = .ok (.rdCsrRsvd6to7 (w.extractLsb' 32 4) (w.extractLsb' 0 32)) := by
  obtain ⟨hrow, hindex, -⟩ := decodeHost_of_csrMask (dir := 0) (m := 0xE) (k := 6) (d := 0) (e := 0) h
  exact hrow.trans (congrArg _ (decodeCsrRead_6to7 (index_6to7 hindex)))

theorem decodeHost_of_wr6to7Mask (h : w &&& 0xFE00000000 = 0x8600000000) :
    decodeHost w addr = .ok (.wrCsrRsvd6to7 (w.extractLsb' 32 4) (w.extractLsb' 0 32)) := by
  obtain ⟨hrow, hindex, -⟩ := decodeHost_of_csrMask (dir := 1) (m := 0xE) (k := 6) (d := 0) (e := 0) h
  exact hrow.trans (congrArg _ (decodeCsrWrite_6to7 (index_6to7 hindex)))

theorem decodeHost_of_rd8to15Mask (h : w &&& 0xF800000000 = 0x0800000000) :
    decodeHost w addr = .ok (.rdCsrRsvd8to15 (w.extractLsb' 32 4) (w.extractLsb' 0 32)) := by
  obtain ⟨hrow, hindex, -⟩ := decodeHost_of_csrMask (dir := 0) (m := 0x8) (k := 8) (d := 0) (e := 0) h
  exact hrow.trans (congrArg _ (decodeCsrRead_8to15 (index_8to15 hindex)))

theorem decodeHost_of_wr8to15Mask (h : w &&& 0xF800000000 = 0x8800000000) :
    decodeHost w addr = .ok (.wrCsrRsvd8to15 (w.extractLsb' 32 4) (w.extractLsb' 0 32)) := by
  obtain ⟨hrow, hindex, -⟩ := decodeHost_of_csrMask (dir := 1) (m := 0x8) (k := 8) (d := 0) (e := 0) h
  exact hrow.trans (congrArg _ (decodeCsrWrite_8to15 (index_8to15 hindex)))

end

theorem eq_of_fullMask {u k : BitVec 32} (h : u &&& 0xFFFFFFFF = k) : u = k :=
  BitVec.and_allOnes.symm.trans h

/-- Settles O3: the match under a row's mask fixes the fields the decoder chooses the row by. -/
theorem opcodeMapRows : Obligations.OpcodeMapRows := by
  constructor
  · intro u
    refine ⟨fun h => ?_, decodeUop_of_gMask, fun h => ?_, fun h => ?_⟩ <;> (rw [eq_of_fullMask h]; rfl)
  · intro w addr
    exact ⟨decodeHost_of_hashMask, decodeHost_of_ctrlNopMask,
      decodeHost_of_key 0 0 0, decodeHost_of_key 0 0 1, decodeHost_of_key 1 0 1,
      decodeHost_of_key 1 0 2, decodeHost_of_key 1 0 3, decodeHost_of_key 0 0 2, decodeHost_of_key 0 0 3,
      decodeHost_of_key 0 0 4, decodeHost_of_key 1 0 4,
      decodeHost_of_key 0 0 5, decodeHost_of_rd6to7Mask, decodeHost_of_rd8to15Mask,
      decodeHost_of_key 1 0 5, decodeHost_of_wr6to7Mask, decodeHost_of_wr8to15Mask,
      decodeHost_of_key 1 1 0, decodeHost_of_key 0 1 0, decodeHost_of_key 0 2 0, decodeHost_of_key 1 2 0⟩

/-! ### HASH and CTRL_NOP (R74) and the spec's vectors -/

/-- The mask of the CTRL rows keeps the whole key and `DATA[0]`. -/
theorem hashMask_iff (w : BitVec 40) :
    w &&& 0xFF00000001 = 0x8000000001 ↔ w.extractLsb' 32 8 = 0x80 ∧ w.getLsbD 0 = true := by
  have hbit : (w.extractLsb' 0 32).getLsbD 0 = w.getLsbD 0 := by simp
  rw [← hbit, ← and_one_eq_iff, ← BitVec.and_allOnes (x := w.extractLsb' 32 8)]
  exact and_append_eq_iff (v := 8) (n := 32) (m := BitVec.allOnes 8) (k := 0x80) (d := 1) (e := 1)

/-- Settles O7: the word decodes by its `DATA[0]`, and neither meaning reads its data. -/
theorem hashCommandEncoding : Obligations.HashCommandEncoding :=
  fun w _ _ => ⟨hashMask_iff w, fun h => ⟨_, decodeHost_of_hashMask h, rfl⟩, fun h => ⟨_, decodeHost_of_ctrlNopMask h, rfl⟩⟩

/-- Settles O8: the decoder runs on the eight words. -/
theorem decodedWordsOfTheSpec : Obligations.DecodedWordsOfTheSpec := by
  unfold Obligations.DecodedWordsOfTheSpec
  decide

end Sys2Proof.Machine
end

section
/-! SUPPORT. The word codec is little-endian, and its two directions undo one another (41_word_codec.md R100 to R105). -/

namespace Sys2Proof.Machine

/-! ### One Word and its four bytes (R100, R102) -/

theorem toNat_append_eq_add {v n : Nat} (x : BitVec v) (y : BitVec n) : (x ++ y).toNat = 2 ^ n * x.toNat + y.toNat := by
  rw [BitVec.toNat_append, ← Nat.shiftLeft_add_eq_or_of_lt y.isLt, Nat.shiftLeft_eq, Nat.mul_comm]

section
variable (b : Vector Byte 4) (w : Word)

/-- The shifted bytes never overlap: the Word is the four bytes side by side, byte 0 lowest. -/
theorem wordFromLeBytes_eq_append : wordFromLeBytes b = b[3] ++ b[2] ++ b[1] ++ b[0] := by
  have hreverse (x y z u : Word) : x ||| y ||| z ||| u = u ||| z ||| y ||| x := by ac_rfl
  refine .trans ?_ (BitVec.setWidth_eq _)
  rw [wordFromLeBytes, hreverse, BitVec.setWidth_append_append_append_eq_shiftLeft_setWidth_or]

/-- So the union of the shifted bytes is their sum. -/
theorem toNat_wordFromLeBytes :
    (wordFromLeBytes b).toNat = b[0].toNat + 2 ^ 8 * b[1].toNat + 2 ^ 16 * b[2].toNat + 2 ^ 24 * b[3].toNat := by
  simp only [wordFromLeBytes_eq_append, toNat_append_eq_add]
  omega

theorem extractLsb'_wordFromLeBytes {t : Nat} (ht : t < 4) : (wordFromLeBytes b).extractLsb' (8 * t) 8 = b[t] := by
  rw [wordFromLeBytes_eq_append]
  match t, ht with
  | 0, _ | 1, _ | 2, _ | 3, _ =>
    simp (disch := decide) only [BitVec.extractLsb'_append_eq_of_le, BitVec.extractLsb'_append_eq_of_add_le,
      Nat.reduceMul, Nat.reduceSub, BitVec.extractLsb'_eq_self]

@[simp] theorem getElem_wordToLeBytes {t : Nat} (ht : t < 4) : (wordToLeBytes w)[t] = w.extractLsb' (8 * t) 8 :=
  getElem_tabulate 4 _ t ht

theorem wordToLeBytes_wordFromLeBytes : wordToLeBytes (wordFromLeBytes b) = b :=
  Vector.ext fun _ ht => (getElem_wordToLeBytes _ ht).trans (extractLsb'_wordFromLeBytes b ht)

theorem wordFromLeBytes_wordToLeBytes : wordFromLeBytes (wordToLeBytes w) = w := by
  simp only [wordFromLeBytes_eq_append, getElem_wordToLeBytes]
  iterate 3 rw [BitVec.extractLsb'_append_extractLsb'_eq_extractLsb' (by rfl)]
  exact BitVec.extractLsb'_eq_self

end

/-! ### Rows of Words (R101, R103, R104) -/

/-- The four bytes that begin at `k` in a longer row. -/
theorem getElem_fourBytes {n k t : Nat} (b : Vector Byte n) (hk : k + 3 < n) (ht : t < 4) :
    #v[b[k], b[k + 1], b[k + 2], b[k + 3]][t] = b[k + t] := by
  match t, ht with
  | 0, _ | 1, _ | 2, _ | 3, _ => rfl

theorem getElem_blockFromLeBytes (b : Vector Byte 64) (i : Fin 16) :
    (blockFromLeBytes b)[i] =
      wordFromLeBytes #v[b[4 * i.val], b[4 * i.val + 1], b[4 * i.val + 2], b[4 * i.val + 3]] :=
  getElem_tabulate 16 _ i.val i.isLt

theorem getElem_cvFromLeBytes (b : Vector Byte 32) {k : Nat} (hk : k < 8) :
    (cvFromLeBytes b)[k] = wordFromLeBytes #v[b[4 * k], b[4 * k + 1], b[4 * k + 2], b[4 * k + 3]] :=
  getElem_tabulate 8 _ k hk

/-- Byte `j` of a digest, before `j` is cut into `4k + t`. -/
theorem getElem_digestFromCv (cv : CVal) {j : Nat} (hj : j < 32) :
    (digestFromCv cv)[j] = (cv[j / 4]).extractLsb' (8 * (j % 4)) 8 := by
  rw [digestFromCv, getElem_tabulate, getElem_wordToLeBytes]

theorem getElem_digestFromCv_add (cv : CVal) {k t : Nat} (hk : k < 8) (ht : t < 4) :
    (digestFromCv cv)[4 * k + t] = (cv[k]).extractLsb' (8 * t) 8 := by
  have hdiv : (4 * k + t) / 4 = k := by omega
  have hmod : (4 * k + t) % 4 = t := by omega
  simp only [getElem_digestFromCv, hdiv, hmod]

theorem digestFromCv_cvFromLeBytes (b : Vector Byte 32) : digestFromCv (cvFromLeBytes b) = b := by
  ext j hj
  rw [getElem_digestFromCv _ hj, getElem_cvFromLeBytes, extractLsb'_wordFromLeBytes _ (by omega),
    getElem_fourBytes b (by omega) (by omega)]
  simp only [Nat.div_add_mod]

/-- The four digest bytes that begin at `4k` are those of Word `k`. -/
theorem fourBytes_digestFromCv (cv : CVal) {k : Nat} (hk : k < 8) :
    #v[(digestFromCv cv)[4 * k], (digestFromCv cv)[4 * k + 1], (digestFromCv cv)[4 * k + 2],
      (digestFromCv cv)[4 * k + 3]] = wordToLeBytes cv[k] := by
  ext t ht
  rw [getElem_fourBytes _ (by omega) ht, getElem_digestFromCv_add cv hk ht, getElem_wordToLeBytes]

theorem cvFromLeBytes_digestFromCv (cv : CVal) : cvFromLeBytes (digestFromCv cv) = cv := by
  ext k hk
  rw [getElem_cvFromLeBytes _ hk, fourBytes_digestFromCv cv hk, wordFromLeBytes_wordToLeBytes]

/-- Settles O10: a row's round trip is that of each of its Words. -/
theorem codecRoundTrip : Obligations.CodecRoundTrip :=
  ⟨wordToLeBytes_wordFromLeBytes, wordFromLeBytes_wordToLeBytes, digestFromCv_cvFromLeBytes, cvFromLeBytes_digestFromCv⟩

/-- Settles O11: each row's bytes are those of its Words, and a Word is its four bytes side by side. -/
theorem codecIsLittleEndian : Obligations.CodecIsLittleEndian := by
  refine ⟨fun b => ⟨rfl, toNat_wordFromLeBytes b, fun t => extractLsb'_wordFromLeBytes b t.isLt⟩,
    fun b i t => ⟨getElem_blockFromLeBytes b i, ?_⟩, fun w t => getElem_wordToLeBytes w t.isLt,
    fun cv k t => ⟨?_, getElem_digestFromCv_add cv k.isLt t.isLt⟩⟩
  · rw [getElem_blockFromLeBytes, extractLsb'_wordFromLeBytes _ t.isLt, getElem_fourBytes b (by omega) t.isLt]
  · exact (getElem_digestFromCv_add cv k.isLt t.isLt).trans (getElem_wordToLeBytes _ t.isLt).symm

end Sys2Proof.Machine
end

section
/-! SUPPORT. The compression primitive and its uops: the 64 words of the ROM as core steps, rotation, the mixer, the
round in its two forms, the message permutation (42_compression.md R114 to R132). -/

namespace Sys2Proof.Machine

/-! ### RUN steps (43_chunk_merkle.md R157) -/

section
variable {s : State}

/-- A core step of a lane with a task in RUN (R155). -/
theorem coreStep_of_run (hactive : s.drv.phase ≠ .idle) (hworks : s.team.waiting = false) (hsub : s.drv.sub = .run) :
    coreStep s = runStep s := by
  rw [coreStep, laneStep_working hworks, fsmStep]
  cases hph : s.drv.phase with
  | idle => exact absurd hph hactive
  | leaf | parent | root => simp only [hsub]

/-- The lane whose turn it is runs the fixed ROM, and no event of the host comes between. -/
structure State.RunsRom (s : State) : Prop where
  romFixed : s.rom = uopRom
  active : s.drv.phase ≠ .idle
  works : s.team.waiting = false
  sub : s.drv.sub = .run
  inbox : s.port.inbox = []

section
variable (h : s.RunsRom) (l : Lane)
include h

/-- Whatever registers the lane has, the step runs the uop at `upc` of the assembled COMPRESS. -/
theorem State.RunsRom.step_eq : step { s with lane := l } = .next { s with lane := l.uop l.nextUop }.afterUop := by
  have hd : decodeUop { s with lane := l }.fetchUop = .ok l.nextUop := by
    rw [State.fetchUop, h.romFixed]
    exact decodeUop_rom l.upc.toFin
  rw [step, nextEvent, h.inbox]
  change coreStep { s with lane := l } = _
  rw [coreStep_of_run (s := { s with lane := l }) h.active h.works h.sub, runStep, hd]
  change finishRun (exec l.nextUop _) = _
  rw [exec_uop_eq hd, finishRun]

theorem State.RunsRom.step_below (hupc : l.upc ≠ 63) :
    step { s with lane := l } = .next { s with lane := { l.uop l.nextUop with upc := l.upc + 1 } } := by
  rw [h.step_eq, State.afterUop, Lane.upc_uop, if_neg hupc]

theorem State.RunsRom.step_last (hupc : l.upc = 63) :
    step { s with lane := l } = .next { s with lane := l.uop l.nextUop, drv := s.drv.afterCompression } := by
  rw [h.step_eq, State.afterUop, Lane.upc_uop, if_pos hupc]

end

theorem Lane.with_upc_self {l : Lane} {c : BitVec 6} (h : l.upc = c) : { l with upc := c } = l := by
  subst h
  rfl

theorem Lane.uops_drop_upc (l : Lane) :
    l.uops (asmCompress.drop l.upc.toNat) = (l.uop l.nextUop).uops (asmCompress.drop (l.upc.toNat + 1)) := by
  rw [List.drop_eq_getElem_cons (show l.upc.toNat < asmCompress.length from l.upc.isLt)]
  rfl

/-- The steps left to the end of the ROM run the uops from `upc` on, and the last moves the driver (R157). -/
theorem State.RunsRom.run_eq (h : s.RunsRom) (l : Lane) {n : Nat} (hn : l.upc.toNat + n = 63) :
    run (n + 1) { s with lane := l } = .next { s with
      lane := { l.uops (asmCompress.drop l.upc.toNat) with upc := 63 }
      drv := s.drv.afterCompression } := by
  induction n generalizing l with
  | zero =>
    have hupc : l.upc = 63 := BitVec.eq_of_toNat_eq hn
    have hend : asmCompress.drop (l.upc.toNat + 1) = [] := by rw [hupc]; rfl
    rw [run_succ (h.step_last l hupc), Lane.uops_drop_upc, hend, Lane.uops, List.foldl_nil,
      Lane.with_upc_self ((Lane.upc_uop _ _).trans hupc)]
    rfl
  | succ n ih =>
    have hupc : l.upc ≠ 63 := fun h63 => by simp [h63] at hn
    have hadd := Lane.upc_add_one hupc
    rw [run_succ (h.step_below l hupc), ih { l.uop l.nextUop with upc := l.upc + 1 } (by rw [hadd]; omega), hadd,
      Lane.uops_upc, Lane.uops_drop_upc]

end

/-- Settles O20: from `upc = 0` the uops left in the ROM are the whole of COMPRESS. -/
theorem romComputesCompress : Obligations.RomComputesCompress := by
  intro s hrom hactive hworks hsub hupc hinbox
  have hruns : s.RunsRom := ⟨hrom, hactive, hworks, hsub, hinbox⟩
  have hall : asmCompress.drop s.lane.upc.toNat = asmCompress := by rw [hupc]; rfl
  refine (hruns.run_eq s.lane (n := 63) (by rw [hupc]; rfl)).trans ?_
  rw [hall, Lane.uops_asmCompress]
  rfl

/-! ### Illegal uops (R132) -/

/-- The word is no uop (30_encoding.md R75): its OP is reserved, or a reserved bit of its format is set. -/
def IllegalUopWord (u : BitVec 32) : Prop :=
  (u.extractLsb' 0 4 ≠ 1 ∧ u.extractLsb' 0 4 ≠ 2 ∧ u.extractLsb' 0 4 ≠ 3 ∧ u.extractLsb' 0 4 ≠ 4) ∨
    (u.extractLsb' 0 4 ≠ 2 ∧ u.extractLsb' 4 28 ≠ 0) ∨ (u.extractLsb' 0 4 = 2 ∧ u.extractLsb' 28 4 ≠ 0)

section
variable (u : BitVec 32)

theorem decodeU0_isOk_iff (j : Instr) : (∃ i, decodeU0 u j = .ok i) ↔ u.extractLsb' 4 28 = 0 :=
  ⟨fun ⟨_, h⟩ => (decodeU0_ok h).1, fun h => ⟨j, if_pos h⟩⟩

theorem decodeUG_isOk_iff : (∃ i, decodeUG u = .ok i) ↔ u.extractLsb' 28 4 = 0 :=
  ⟨fun ⟨_, h⟩ => (decodeUG_ok h).1, fun h => ⟨_, if_pos h⟩⟩

/-- A word of format U0 is illegal by its reserved bits. -/
theorem not_illegalUopWord_iff_of_U0 (hop : u.extractLsb' 0 4 = 1 ∨ u.extractLsb' 0 4 = 3 ∨ u.extractLsb' 0 4 = 4) :
    ¬ IllegalUopWord u ↔ u.extractLsb' 4 28 = 0 := by
  rcases hop with hop | hop | hop <;> simp [IllegalUopWord, hop]

theorem decodeUop_isOk_iff : (∃ i, decodeUop u = .ok i) ↔ ¬ IllegalUopWord u := by
  unfold decodeUop
  split
  case h_1 hop => rw [decodeU0_isOk_iff, not_illegalUopWord_iff_of_U0 _ (.inl (BitVec.eq_of_toNat_eq hop))]
  case h_3 hop => rw [decodeU0_isOk_iff, not_illegalUopWord_iff_of_U0 _ (.inr (.inl (BitVec.eq_of_toNat_eq hop)))]
  case h_4 hop => rw [decodeU0_isOk_iff, not_illegalUopWord_iff_of_U0 _ (.inr (.inr (BitVec.eq_of_toNat_eq hop)))]
  case h_2 hop =>
    have hop : u.extractLsb' 0 4 = 2 := BitVec.eq_of_toNat_eq hop
    simp [decodeUG_isOk_iff, IllegalUopWord, hop]
  case h_5 h1 h2 h3 h4 =>
    refine iff_of_false nofun (not_not.mpr (.inl ⟨?_, ?_, ?_, ?_⟩)) <;> intro hop <;> simp [hop] at h1 h2 h3 h4

end

/-- Settles O4: a RUN step faults on exactly the words that do not decode. -/
theorem illegalUopFaults : Obligations.IllegalUopFaults := by
  refine ⟨fun s hactive hworks hsub hillegal => ?_, fun u => (decodeUop_isOk_iff u).mpr,
    fun k => (decodeUop_isOk_iff _).mp (decodeUop_uopRom k)⟩
  rw [coreStep_of_run hactive hworks hsub, runStep]
  cases hd : decodeUop s.fetchUop with
  | ok i => exact absurd hillegal ((decodeUop_isOk_iff _).mp ⟨i, hd⟩)
  | error e => rfl

/-! ### Rotation (R114) -/

/-- A rotation by 0 shifts left by the whole width, so that the one formula of rotation covers it. -/
theorem rotr_eq_rotateRight (w : Word) {n : Nat} (hn : n < 32) : rotr w n = w.rotateRight n := by
  rw [BitVec.rotateRight_eq_rotateRightAux_of_lt hn, BitVec.rotateRightAux, rotr]
  split
  · next h0 => subst h0; simp
  · rfl

theorem getLsbD_rotr (w : Word) {n i : Nat} (hn : n < 32) (hi : i < 32) :
    (rotr w n).getLsbD i = w.getLsbD ((i + n) % 32) := by
  rw [rotr_eq_rotateRight w hn, BitVec.getLsbD_rotateRight_of_lt hn]
  by_cases hlow : i < 32 - n
  · have hmod : (i + n) % 32 = n + i := by omega
    simp [hlow, hmod]
  · have hmod : (i + n) % 32 = i - (32 - n) := by omega
    simp [hlow, hi, hmod]

/-- Settles O12: below 32 `rotr` is the rotation of bit vectors. -/
theorem rotrBits : Obligations.RotrBits :=
  ⟨fun w _ _ => getLsbD_rotr w, fun _ _ h1 _ => if_neg (Nat.pos_iff_ne_zero.mp h1), fun _ => if_pos rfl,
    by decide, by decide, by decide, by decide, by decide⟩

/-! ### The mixer G (R115, R116, R127) -/

/-- The four Words a call of G works on. -/
structure Quad where
  a : Word
  b : Word
  c : Word
  d : Word

/-- Lines 1 to 4 of R115, and again 5 to 8, on four separate Words. -/
def Quad.mixHalf (q : Quad) (mv : Word) (rd rb : Nat) : Quad :=
  let a := q.a + q.b + mv
  let d := rotr (q.d ^^^ a) rd
  let c := q.c + d
  { a := a, b := rotr (q.b ^^^ c) rb, c := c, d := d }

/-- The eight lines of R115 on four separate Words. -/
def Quad.mix (q : Quad) (mx my : Word) : Quad := (q.mixHalf mx 16 12).mixHalf my 8 7

/-- The four elements of the state at the given indices. -/
def quadAt (st : Block) (a b c d : Fin 16) : Quad := { a := st[a], b := st[b], c := st[c], d := st[d] }

section
variable (st : Block) {a b c d : Fin 16}

theorem quadAt_mixHalf (h : [a, b, c, d].Nodup) (mv : Word) (rd rb : Nat) :
    quadAt (mixHalf st a b c d mv rd rb) a b c d = (quadAt st a b c d).mixHalf mv rd rb := by
  obtain ⟨⟨hab, hac, had⟩, ⟨hbc, hbd⟩, hcd⟩ : (a ≠ b ∧ a ≠ c ∧ a ≠ d) ∧ (b ≠ c ∧ b ≠ d) ∧ c ≠ d := by
    simpa using h
  simp [quadAt, mixHalf, Quad.mixHalf, Fin.val_inj, hab, hac, had, hbc, hbd, hcd, hab.symm, hac.symm, had.symm,
    hbc.symm, hbd.symm, hcd.symm]

theorem mixHalf_other {i : Fin 16} (h : i ∉ [a, b, c, d]) (mv : Word) (rd rb : Nat) :
    (mixHalf st a b c d mv rd rb)[i] = st[i] := by
  obtain ⟨ha, hb, hc, hd⟩ : i ≠ a ∧ i ≠ b ∧ i ≠ c ∧ i ≠ d := by simpa using h
  simp [mixHalf, Vector.getElem_set, Fin.val_inj, ha.symm, hb.symm, hc.symm, hd.symm]

theorem quadAt_mixG (h : [a, b, c, d].Nodup) (mx my : Word) :
    quadAt (mixG st a b c d mx my) a b c d = (quadAt st a b c d).mix mx my := by
  rw [mixG, quadAt_mixHalf _ h, quadAt_mixHalf _ h, Quad.mix]

theorem mixG_other {i : Fin 16} (h : i ∉ [a, b, c, d]) (mx my : Word) : (mixG st a b c d mx my)[i] = st[i] := by
  rw [mixG, mixHalf_other _ h, mixHalf_other _ h]

theorem quadAt_mixG_other {i j k l : Fin 16} (h : ∀ n ∈ [i, j, k, l], n ∉ [a, b, c, d]) (mx my : Word) :
    quadAt (mixG st a b c d mx my) i j k l = quadAt st i j k l := by
  simp only [quadAt]
  rw [mixG_other _ (h i (by simp)), mixG_other _ (h j (by simp)), mixG_other _ (h k (by simp)),
    mixG_other _ (h l (by simp))]

end

/-- Settles O14: `mixG` is the eight lines. -/
theorem gRunsEightLinesInOrder : Obligations.GRunsEightLinesInOrder := fun _ _ _ _ _ _ _ => rfl

theorem regIndex_inj {a b : BitVec 4} : regIndex a = regIndex b ↔ a = b := BitVec.toFin_inj

/-- Settles O13: on different indices G mixes the four elements as it mixes four separate Words. -/
theorem gMixesDistinctIndices : Obligations.GMixesDistinctIndices := by
  intro a b c d x y s hab hac had hbc hbd hcd sv mx my a1 d1 c1 b1 a2 d2 c2 b2
  have hnodup : [regIndex a, regIndex b, regIndex c, regIndex d].Nodup := by
    simp [regIndex_inj, hab, hac, had, hbc, hbd, hcd]
  have hquad := quadAt_mixG s.lane.s hnodup mx my
  simp (disch := decide) only [Quad.mix, Quad.mixHalf, rotr_eq_rotateRight] at hquad
  injection hquad with ha hb hc hd
  refine ⟨_, rfl, ha, hb, hc, hd, fun i hia hib hic hid => mixG_other (i := regIndex i) _ ?_ _ _⟩
  simp [regIndex_inj, hia, hib, hic, hid]

/-! ### The round in its two forms (R117, R118) -/

/-- The state indices of a call of G. -/
structure QuadIndex where
  a : Fin 16
  b : Fin 16
  c : Fin 16
  d : Fin 16

def QuadIndex.list (k : QuadIndex) : List (Fin 16) := [k.a, k.b, k.c, k.d]

/-- Calls 1 to 4 of R117. -/
def columnIndices : List QuadIndex := [⟨0, 4, 8, 12⟩, ⟨1, 5, 9, 13⟩, ⟨2, 6, 10, 14⟩, ⟨3, 7, 11, 15⟩]

/-- Calls 5 to 8 of R117. -/
def diagonalIndices : List QuadIndex := [⟨0, 5, 10, 15⟩, ⟨1, 6, 11, 12⟩, ⟨2, 7, 8, 13⟩, ⟨3, 4, 9, 14⟩]

theorem ofRows_rowsOf (st : Block) : ofRows (rowsOf st) = st := by
  ext1 i hi
  interval_cases i <;> rfl

/-- States that agree on calls which cover the sixteen indices are equal. -/
theorem block_ext_of_quadAt {st st' : Block} {ks : List QuadIndex} (hcover : ∀ i, ∃ k ∈ ks, i ∈ k.list)
    (h : ∀ k ∈ ks, quadAt st k.a k.b k.c k.d = quadAt st' k.a k.b k.c k.d) : st = st' := by
  have hfin (i : Fin 16) : st[i] = st'[i] := by
    obtain ⟨k, hk, hmem⟩ := hcover i
    injection h k hk with ha hb hc hd
    simp only [QuadIndex.list, List.mem_cons, List.not_mem_nil, or_false] at hmem
    rcases hmem with rfl | rfl | rfl | rfl
    · exact ha
    · exact hb
    · exact hc
    · exact hd
  exact Vector.ext fun i hi => hfin ⟨i, hi⟩

/-- No column call touches another column, so each column is mixed by itself, as a lane is. -/
theorem columnCalls_ofRows (r : Rows) (msg : Block) : columnCalls (ofRows r) msg =
    ofRows (mixRows r #v[msg[0], msg[2], msg[4], msg[6]] #v[msg[1], msg[3], msg[5], msg[7]]) := by
  apply block_ext_of_quadAt (ks := columnIndices) (by decide)
  simp (disch := decide) only [columnIndices, List.forall_mem_cons, columnCalls, quadAt_mixG, quadAt_mixG_other]
  exact ⟨rfl, rfl, rfl, rfl, nofun⟩

/-- Rotating the rows brings the four elements of a diagonal into one lane. -/
theorem diagonalCalls_ofRows (r : Rows) (msg : Block) : diagonalCalls (ofRows r) msg =
    ofRows (rotateRows (mixRows (rotateRows r 1 2 3) #v[msg[8], msg[10], msg[12], msg[14]]
      #v[msg[9], msg[11], msg[13], msg[15]]) 3 2 1) := by
  apply block_ext_of_quadAt (ks := diagonalIndices) (by decide)
  simp (disch := decide) only [diagonalIndices, List.forall_mem_cons, diagonalCalls, quadAt_mixG, quadAt_mixG_other]
  exact ⟨rfl, rfl, rfl, rfl, nofun⟩

/-- Settles O18: the lanes are the columns, and with the rows rotated the diagonals. -/
theorem rowVectorRoundIsRound : Obligations.RowVectorRoundIsRound := by
  intro st msg
  rw [roundByRows, round, ← diagonalCalls_ofRows, ← columnCalls_ofRows, ofRows_rowsOf]

/-! ### The message permutation (R119) -/

/-- The old index of the Word that `permute` puts at index `i`. -/
def msgSource (i : Fin 16) : Fin 16 := msgPermutation[i]

theorem getElem_permute (msg : Block) (i : Fin 16) : (permute msg)[i] = msg[msgSource i] :=
  getElem_tabulate 16 _ i.val i.isLt

theorem getElem_permuteTimes (k : Nat) (msg : Block) (i : Fin 16) : (permuteTimes k msg)[i] = msg[msgSource^[k] i] := by
  induction k generalizing msg with
  | zero => rfl
  | succ k ih => simp only [permuteTimes, ih, getElem_permute, Function.iterate_succ_apply']

theorem msgSource_iterate_eight (i : Fin 16) : msgSource^[8] i = i := by
  revert i
  decide

/-- The cycle of index 0 has length 8. -/
theorem msgSource_iterate_zero_ne {k : Nat} (h0 : 0 < k) (h8 : k < 8) : msgSource^[k] 0 ≠ 0 := by
  interval_cases k <;> decide

/-- The message whose Words are their own indices. -/
def numberedBlock : Block := #v[0, 1, 2, 3, 4, 5, 6, 7, 8, 9, 10, 11, 12, 13, 14, 15]

theorem eq_zero_of_getElem_numberedBlock {i : Fin 16} (h : numberedBlock[i] = numberedBlock[(0 : Fin 16)]) : i = 0 := by
  revert i
  decide

theorem permuteTimes_eight (msg : Block) : permuteTimes 8 msg = msg := by
  have hfin (i : Fin 16) : (permuteTimes 8 msg)[i] = msg[i] := by
    simp only [getElem_permuteTimes, msgSource_iterate_eight]
  exact Vector.ext fun i hi => hfin ⟨i, hi⟩

theorem permuteTimes_numberedBlock_ne {k : Nat} (h0 : 0 < k) (h8 : k < 8) :
    permuteTimes k numberedBlock ≠ numberedBlock := fun heq => by
  have hread := getElem_permuteTimes k numberedBlock 0
  rw [heq] at hread
  exact msgSource_iterate_zero_ne h0 h8 (eq_zero_of_getElem_numberedBlock hread.symm)

/-- Settles O19: `permute` moves each index along its cycle; every cycle length divides 8, and that of index 0 is 8. -/
theorem permuteHasOrderEight : Obligations.PermuteHasOrderEight :=
  ⟨getElem_permute, permuteTimes_eight, fun _ h0 h8 => ⟨numberedBlock, permuteTimes_numberedBlock_ne h0 h8⟩,
    by decide, by decide⟩

/-! ### The ROM (R130) -/

theorem encode_asmCompress (k : Fin 64) : encode (asmCompress[k.val]'k.isLt) = .uop uopRom[k] :=
  encode_decodeUop (decodeUop_rom k)

/-- Settles O9: the words are read off the ROM, and each is the code of the uop it decodes to. -/
theorem romLayout : Obligations.RomLayout := by
  refine ⟨rfl, rfl, by decide, by decide, rfl, List.ext_getElem rfl fun k hk _ => ?_⟩
  rw [List.getElem_map, List.getElem_map]
  exact (encode_asmCompress ⟨k, by simpa using hk⟩).symm

/-! ### INIT, PERM and FINAL (R126, R128, R129) -/

/-- Settles O15: `initState` is written out. -/
theorem initBuildsTheState : Obligations.InitBuildsTheState := by
  refine fun s => ⟨_, rfl, ?_, ?_, rfl, rfl, rfl, rfl⟩
  · intro i; match i with
    | 0 | 1 | 2 | 3 | 4 | 5 | 6 | 7 => rfl
  · intro i; match i with
    | 0 | 1 | 2 | 3 => rfl

/-- Settles O16: `permute` reads each Word at its entry of MSG_PERMUTATION. -/
theorem permPermutesTheMessage : Obligations.PermPermutesTheMessage := fun s => ⟨permute s.lane.m, rfl, rfl⟩

/-- Settles O17: `foldState` element by element. -/
theorem finalFoldsTheState : Obligations.FinalFoldsTheState := fun s =>
  ⟨foldState s.lane.s, rfl, fun i => getElem_tabulate 8 _ i.val i.isLt⟩

end Sys2Proof.Machine
end

section
/-! SUPPORT. Which step a turn of a lane with a task is (43_chunk_merkle.md R155), runs put together from parts, and a whole
run of the reference model with nothing on the host port (R166, R167). -/

namespace Sys2Proof.Machine

/-! ### The step of a lane with a task -/

section
variable {s : State} (hworks : s.team.waiting = false)
include hworks

theorem coreStep_leafLoad (hph : s.drv.phase = .leaf) (hsub : s.drv.sub = .load) : coreStep s = leafLoad s := by
  rw [coreStep, laneStep_working hworks, fsmStep, hph, hsub]

theorem coreStep_leafStore (hph : s.drv.phase = .leaf) (hsub : s.drv.sub = .store) : coreStep s = leafStore s := by
  rw [coreStep, laneStep_working hworks, fsmStep, hph, hsub]

theorem coreStep_parentLoad (hph : s.drv.phase = .parent) (hsub : s.drv.sub = .load) : coreStep s = parentLoad s := by
  rw [coreStep, laneStep_working hworks, fsmStep, hph, hsub]

theorem coreStep_parentStore (hph : s.drv.phase = .parent) (hsub : s.drv.sub = .store) :
    coreStep s = parentStore s := by
  rw [coreStep, laneStep_working hworks, fsmStep, hph, hsub]

theorem coreStep_rootLoad (hph : s.drv.phase = .root) (hsub : s.drv.sub = .load) : coreStep s = rootLoad s := by
  rw [coreStep, laneStep_working hworks, fsmStep, hph, hsub]

theorem coreStep_exportDigest (hph : s.drv.phase = .root) (hsub : s.drv.sub = .store) :
    coreStep s = exportDigest s := by
  rw [coreStep, laneStep_working hworks, fsmStep, hph, hsub]

end

theorem State.parked_of_lanes {s : State} (h : s.lanes = 1) : s.team.parked = [] :=
  List.eq_nil_of_length_eq_zero (Nat.succ.inj h)

theorem State.parked_ne_of_lanes {s : State} (h : s.lanes ≠ 1) : s.team.parked ≠ [] := fun hq =>
  h (by rw [State.lanes, hq]; rfl)

/-- A RUN step runs the uop and then moves on (R157). -/
theorem runStep_of_decode {s t : State} {i : Instr} (hd : decodeUop s.fetchUop = .ok i) (hexec : exec i s = .next t) :
    runStep s = .next t.afterUop := by
  rw [runStep, hd]
  change finishRun (exec i s) = _
  rw [hexec, finishRun]

/-! ### Runs -/

theorem coreRun_one (M : Host.Core) (s : M.State) : M.run 1 s = M.step s := by
  rw [Host.Core.run]
  cases M.step s <;> rfl

theorem coreRun_succ_next (M : Host.Core) {s t : M.State} {k : Nat} (h : M.run (k + 1) s = .next t) :
    ∃ u, M.step s = .next u ∧ M.run k u = .next t := by
  rw [Host.Core.run] at h
  split at h
  · next u hu => exact ⟨u, hu, h⟩
  · cases h
  · cases h

theorem run_one (s : State) : run 1 s = step s := coreRun_one core s

/-- A run of several steps that has not stopped has a first step. -/
theorem run_succ_next {s t : State} {k : Nat} (h : run (k + 1) s = .next t) :
    ∃ u, step s = .next u ∧ run k u = .next t := coreRun_succ_next core h

theorem run_add {s t : State} {a : Nat} (h : run a s = .next t) (b : Nat) : run (a + b) s = run b t := by
  induction a generalizing s with
  | zero =>
    cases h
    rw [Nat.zero_add]
  | succ a ih =>
    obtain ⟨u, hu, hrun⟩ := run_succ_next h
    rw [Nat.succ_add, run_succ hu, ih hrun]

theorem step_of_no_event {s : State} (h : s.port.inbox = []) : step s = coreStep s := by
  rw [step, nextEvent, h]

/-- While STATUS is busy DOUT stays: it changes only in the event that sets STATUS to 0x2. -/
theorem dout_eq_of_busy {s t : State} (ht : step s = .next t) (hbusy : t.status = statusBusy) : t.dout = s.dout := by
  by_contra hne
  obtain ⟨_, _, -, -, -, -, -, hdone⟩ := doutChangesOnlyAtExport s t ht hne
  exact absurd (hbusy.symm.trans hdone) (by decide)

/-! ### What a run with one lane leaves alone -/

/-- Nothing has changed but the lane, the driver, the scratch, DOUT and STATUS. -/
def State.RunFrame (s t : State) : Prop :=
  t = { s with lane := t.lane, drv := t.drv, scr0 := t.scr0, scr1 := t.scr1, dout := t.dout, status := t.status }

theorem State.RunFrame.port_eq {s t : State} (h : s.RunFrame t) : t.port = s.port := (congrArg State.port h :)

theorem State.RunFrame.trans {s t u : State} (hst : s.RunFrame t) (htu : t.RunFrame u) : s.RunFrame u :=
  Eq.trans htu (by rw [hst])

/-- A lane that is alone takes no task and gives no turn away. -/
theorem State.LaneMove.team_alone {s t : State} (h : s.LaneMove t) (halone : s.team.parked = [])
    (hworks : s.team.waiting = false) : t.team = s.team := by
  cases h with
  | take hw | pass hw => simp [hworks] at hw
  | uop => rw [State.afterUop_team]
  | leafStore => rw [State.afterLeaf_alone (by simpa using halone), State.scrWrite_team]
  | parentStore => rw [State.afterParent_alone (by simpa using halone), State.scrWrite_team]
  | leafLoad | parentLoad | rootLoad | exportDigest => rfl

section
variable {s t : State} {mem : Memory} {n : Nat}

theorem State.LoneRun.runFrame (h : s.LoneRun mem n) (hmove : s.LaneMove t) : s.RunFrame t := by
  have hteam := hmove.team_alone h.config.alone h.config.works
  exact Eq.trans hmove.frame (by rw [hteam])

/-- With nothing on the host port the run comes to its last step, and has left DOUT alone. -/
theorem State.LoneRun.run_to_last (h : s.LoneRun mem n) (hinbox : s.port.inbox = []) {k : Nat}
    (hleft : s.stepsLeft = k + 1) :
    ∃ u, run k s = .next u ∧ u.LoneRun mem n ∧ u.stepsLeft = 1 ∧ u.dout = s.dout ∧ s.RunFrame u := by
  induction k generalizing s with
  | zero => exact ⟨s, rfl, h, hleft, rfl, rfl⟩
  | succ k ih =>
    obtain ⟨t, ht, hnext | ⟨hlast, -⟩⟩ := h.coreStep
    · have hstep := (step_of_no_event hinbox).trans ht
      have hframe := h.runFrame (laneStep_move h.active ht)
      have hport : t.port.inbox = [] := by rw [hframe.port_eq, hinbox]
      obtain ⟨u, hu, hrun, hone, hdout, hframe'⟩ := ih hnext.1 hport (by have := hnext.2; omega)
      exact ⟨u, (run_succ hstep k).trans hu, hrun, hone,
        hdout.trans (dout_eq_of_busy hstep hnext.1.config.status), hframe.trans hframe'⟩
    · omega

/-- The step that ends a run is EXPORT, which leaves SUB at LOAD (R162). -/
theorem State.LoneEnd.sub_load (h : t.LoneEnd mem n) (hrun : s.LoneRun mem n) (ht : coreStep s = .next t) :
    t.drv.sub = .load := by
  have hchanged : t.status ≠ s.status := by
    rw [h.status, hrun.config.status]
    decide
  obtain ⟨-, hph, hsub, hworks⟩ := (laneStep_move hrun.active ht).status_changed hchanged
  rw [coreStep_exportDigest hworks hph hsub] at ht
  cases ht
  rfl

end

/-- Settles O31: the run has as many steps left as R166 counts, and the last of them is EXPORT. -/
theorem runReachesDigest : Obligations.RunReachesDigest := by
  intro s n hstart hlanes hinbox
  obtain ⟨hrun, hleft⟩ := hstart.loneRun hlanes
  obtain ⟨k, hk⟩ := Nat.exists_eq_add_one.mpr s.stepsLeft_pos
  obtain ⟨u, hu, hrun', hone, hdout, hframe⟩ := hrun.run_to_last hinbox hk
  rw [← hleft, hk, Nat.add_sub_cancel]
  refine ⟨⟨u, hu, hrun'.config.status, hdout⟩, ?_⟩
  obtain ⟨t, ht, hnext | ⟨-, hend⟩⟩ := hrun'.coreStep
  · have hmore := hnext.2
    have hpos := t.stepsLeft_pos
    omega
  · have hfinal : run (k + 1) s = .next t := by
      rw [run_add hu, run_one, step_of_no_event (by rw [hframe.port_eq, hinbox]), ht]
    exact ⟨t, hfinal, hend.cv, hend.dout, hend.status, hend.idle, hend.sub_load hrun' ht,
      hframe.trans (hrun'.runFrame (laneStep_move hrun'.active ht))⟩

end Sys2Proof.Machine
end

section
/-! SUPPORT. The core steps of one task: a compression from its LOAD, the sixteen of a chunk and the one of a parent, each
with its STORE (43_chunk_merkle.md R140, R144, R156 to R160). -/

namespace Sys2Proof.Machine

section
variable {s : State}

/-! ### What a LOAD gives the compression -/

/-- LEAF LOAD gives block BJ of chunk CI, if CV is the chunk's so far (R140, R156). -/
theorem State.leafLoaded_eq (hph : s.drv.phase = .leaf)
    (hchained : s.drv.bj ≠ 0 → s.lane.cv = (s.drv.operands s.inRead).cv) :
    s.leafLoaded = s.loadOperands (s.drv.operands s.inRead).cv (s.drv.operands s.inRead).block
      (s.drv.operands s.inRead).cnt (s.drv.operands s.inRead).flg := by
  have hcv : (if s.drv.bj = 0 then iv else s.lane.cv) = (s.drv.operands s.inRead).cv := by
    split
    · next hbj => rw [Driver.operands_leaf hph, hbj]; rfl
    · next hbj => exact hchained hbj
  rw [State.leafLoaded, hcv, Driver.operands_leaf hph]
  rfl

/-- The block lies in IN where the chunk's slot exists. -/
theorem leafLoad_of_slot (hslot : s.drv.ci.toNat < s.nMax) : leafLoad s = .next s.leafLoaded := by
  have hbj := s.drv.bj.isLt
  refine if_pos ?_
  rw [State.leafBase, State.inBytes]
  omega

/-! ### One compression -/

/-- The lane whose turn it is has a task, with the fixed ROM, and is at a LOAD; no event of the host comes between. -/
structure State.AtLoad (s : State) : Prop where
  romFixed : s.rom = uopRom
  active : s.drv.phase ≠ .idle
  sub : s.drv.sub = .load
  works : s.team.waiting = false
  inbox : s.port.inbox = []

/-- The LOAD and the 64 words of the ROM leave the compression of the operands loaded in CV (R131). -/
theorem State.AtLoad.run_compression (h : s.AtLoad) {cv : CVal} {m : Block} {cnt : BitVec 64} {flg : Word}
    (hload : coreStep s = .next (s.loadOperands cv m cnt flg)) :
    ∃ lane, run 65 s = .next { s with lane := lane, drv := s.drv.afterCompression } ∧
      lane.cv = compress cv m cnt 64 flg := by
  have hrun := romComputesCompress (s.loadOperands cv m cnt flg) h.romFixed h.active h.works rfl rfl h.inbox
  exact ⟨_, (run_succ ((step_of_no_event h.inbox).trans hload) 64).trans hrun, rfl⟩

/-! ### A chunk -/

/-- Block BJ of a chunk takes the chunk's CV one block on (R140). -/
theorem State.AtLoad.run_block (h : s.AtLoad) (hph : s.drv.phase = .leaf) (hslot : s.drv.ci.toNat < s.nMax)
    (hchained : s.drv.bj ≠ 0 → s.lane.cv = (s.drv.operands s.inRead).cv) :
    ∃ lane, run 65 s = .next { s with lane := lane, drv := s.drv.afterCompression } ∧
      lane.cv = chunkPrefix s.inRead (chunkLen * s.drv.ci.toNat) s.drv.ci (s.drv.bj.toNat + 1) := by
  have hload : coreStep s = .next s.leafLoaded :=
    (coreStep_leafLoad h.works hph h.sub).trans (leafLoad_of_slot hslot)
  rw [State.leafLoaded_eq hph hchained] at hload
  obtain ⟨lane, hrun, hcv⟩ := h.run_compression hload
  exact ⟨lane, hrun, hcv.trans (Driver.result_leaf hph s.inRead)⟩

/-- The blocks from BJ on, where CV is the chunk's so far, leave the chunk's chaining value at its STORE. -/
theorem State.AtLoad.run_blocks (h : s.AtLoad) (hph : s.drv.phase = .leaf) (hslot : s.drv.ci.toNat < s.nMax)
    (hchained : s.drv.bj ≠ 0 → s.lane.cv = (s.drv.operands s.inRead).cv) {k : Nat} (hk : s.drv.bj.toNat + k = 15) :
    ∃ lane, run (65 * (k + 1)) s = .next { s with lane := lane, drv := { s.drv with bj := 15, sub := .store } } ∧
      lane.cv = compressChunk s.inRead (chunkLen * s.drv.ci.toNat) s.drv.ci := by
  obtain ⟨lane, hrun, hcv⟩ := h.run_block hph hslot hchained
  induction k generalizing s lane with
  | zero =>
    have hbj : s.drv.bj = 15 := BitVec.eq_of_toNat_eq hk
    have hlast : s.drv.afterCompression = { s.drv with bj := 15, sub := .store } := by
      rw [Driver.afterCompression, if_neg (by simp [hbj]), ← hbj]
    rw [hlast] at hrun
    rw [hbj] at hcv
    exact ⟨lane, hrun, hcv⟩
  | succ k ih =>
    have hmore : s.drv.afterCompression = { s.drv with bj := s.drv.bj + 1, sub := .load } :=
      if_pos ⟨hph, by omega⟩
    have hsucc : (s.drv.bj + 1).toNat = s.drv.bj.toNat + 1 := BitVec.toNat_add_of_lt (by change _ + 1 < _; omega)
    rw [hmore] at hrun
    set u : State := { s with lane := lane, drv := { s.drv with bj := s.drv.bj + 1, sub := .load } }
    have hload : u.AtLoad := ⟨h.romFixed, h.active, rfl, h.works, h.inbox⟩
    have hchained' : u.drv.bj ≠ 0 → u.lane.cv = (u.drv.operands u.inRead).cv := fun _ => by
      rw [Driver.operands_leaf (d := u.drv) hph]
      exact hcv.trans (by rw [← hsucc]; rfl)
    obtain ⟨lane₁, hrun₁, hcv₁⟩ := hload.run_block hph hslot hchained'
    rw [show 65 * (k + 1 + 1) = 65 + 65 * (k + 1) by omega, run_add hrun]
    exact ih hload hph hslot hchained' (by change (s.drv.bj + 1).toNat + k = 15; omega) lane₁ hrun₁ hcv₁

end

/-! ### The STORE of a task -/

/-- The state with the registers of the lane whose turn it is and the scratch replaced. -/
def State.withData (s : State) (lane : Lane) (bank0 bank1 : Scratch) : State :=
  { s with lane := lane, scr0 := bank0, scr1 := bank1 }

section
variable (s : State) (lane : Lane) (bank0 bank1 : Scratch) (sub : Sub)

/-- Where a STORE takes the driver and the lanes does not depend on the lane's registers, the scratch or SUB. -/
theorem State.afterStore_withData (alone next : Driver) :
    ({ s with drv := { s.drv with sub := sub } }.withData lane bank0 bank1).afterStore alone next =
      (s.afterStore alone next).withData lane bank0 bank1 := by
  unfold State.afterStore
  rw [apply_ite (State.withData · lane bank0 bank1), apply_ite (State.withData · lane bank0 bank1)]
  rfl

theorem State.afterLeaf_withData (bj : BitVec 4) :
    ({ s with drv := { s.drv with sub := sub, bj := bj } }.withData lane bank0 bank1).afterLeaf =
      s.afterLeaf.withData lane bank0 bank1 :=
  State.afterStore_withData { s with drv := { s.drv with bj := 0 } } lane bank0 bank1 sub _ _

theorem State.afterParent_withData :
    ({ s with drv := { s.drv with sub := sub } }.withData lane bank0 bank1).afterParent =
      s.afterParent.withData lane bank0 bank1 :=
  s.afterStore_withData lane bank0 bank1 sub _ _

/-- A STORE writes its slot and moves the driver and the lanes; the order does not matter. -/
theorem State.afterLeaf_scrWrite (b k : Nat) (cv : CVal) : (s.scrWrite b k cv).afterLeaf =
    s.afterLeaf.withData s.lane (s.scrWrite b k cv).scr0 (s.scrWrite b k cv).scr1 := by
  rw [← s.afterLeaf_withData s.lane _ _ s.drv.sub s.drv.bj, State.scrWrite_eq]
  rfl

theorem State.afterParent_scrWrite (b k : Nat) (cv : CVal) : (s.scrWrite b k cv).afterParent =
    s.afterParent.withData s.lane (s.scrWrite b k cv).scr0 (s.scrWrite b k cv).scr1 := by
  rw [← s.afterParent_withData s.lane _ _ s.drv.sub, State.scrWrite_eq]
  rfl

end

/-- Settles O29: sixteen compressions chain the chunk's CV, and the STORE puts it into the chunk's slot. -/
theorem chunkRunStoresLeaf : Obligations.ChunkRunStoresLeaf := by
  intro s hrom hph hsub hbj hinbox hworks hslot
  have hload : s.AtLoad := ⟨hrom, by simp [hph], hsub, hworks, hinbox⟩
  obtain ⟨lane, hrun, hcv⟩ := hload.run_blocks hph hslot (absurd hbj) (k := 15) (by rw [hbj]; rfl)
  set u : State := { s with lane := lane, drv := { s.drv with bj := 15, sub := .store } }
  have hstore : step u = .next (u.scrWrite 0 s.drv.ci.toNat lane.cv).afterLeaf := by
    rw [step_of_no_event (s := u) hinbox, coreStep_leafStore (s := u) hworks hph rfl]
    exact if_pos hslot
  have hafter : (u.scrWrite 0 s.drv.ci.toNat lane.cv).afterLeaf =
      s.afterLeaf.withData lane (s.scr0.write s.drv.ci.toNat lane.cv) s.scr1 :=
    s.afterLeaf_withData lane _ s.scr1 .store 15
  refine ⟨_, (run_add hrun 1).trans ((run_one u).trans (hstore.trans (congrArg _ hafter))), congrArg _ hcv, rfl, rfl,
    fun hlanes => ?_, ?_⟩
  · change s.afterLeaf.drv = _
    rw [State.afterLeaf_alone (State.parked_of_lanes hlanes), ← hbj]
  · rw [State.afterLeaf, State.afterStore_eq]
    rfl

/-- Settles O30: the compression of the two children loaded, and the STORE puts it into the node's slot. -/
theorem parentRunStoresNode : Obligations.ParentRunStoresNode := by
  intro s hrom hph hsub hinbox hworks hlvl hslot
  have hload : s.AtLoad := ⟨hrom, by simp [hph], hsub, hworks, hinbox⟩
  obtain ⟨lane, hrun, hcv⟩ := hload.run_compression ((coreStep_parentLoad hworks hph hsub).trans (if_pos hslot))
  have hend : s.drv.afterCompression = { s.drv with sub := .store } := if_neg (by simp [hph])
  rw [hend] at hrun
  set u : State := { s with lane := lane, drv := { s.drv with sub := .store } }
  set v := u.scrWrite (s.drv.lvl.toNat % 2) s.drv.node.toNat lane.cv with hv
  have hstore : step u = .next v.afterParent := by
    rw [step_of_no_event (s := u) hinbox, coreStep_parentStore (s := u) hworks hph rfl]
    exact if_pos (by change s.drv.node.toNat < s.nMax; omega)
  have hafter : v.afterParent = s.afterParent.withData lane v.scr0 v.scr1 := by
    rw [← s.afterParent_withData lane v.scr0 v.scr1 .store, hv, State.scrWrite_eq]
    rfl
  have hread (b k : Nat) : v.afterParent.scrRead b k = v.scrRead b k := by
    simp [State.scrRead, State.bank]
  refine ⟨_, (run_add hrun 1).trans ((run_one u).trans hstore), ?_, ?_, ?_, fun hlanes => ?_, ?_, fun b k hbk => ?_⟩
  · rw [hread, hv, State.scrRead_scrWrite_same, hcv, State.parentSource, toNat_sub_one_of_pos hlvl]
    rfl
  · rw [hafter]
    rfl
  · rw [hafter]
    rfl
  · rw [hafter]
    change s.afterParent.drv = _
    rw [State.afterParent_alone (State.parked_of_lanes hlanes)]
  · rw [hafter, State.afterParent, State.afterStore_eq]
    rfl
  · rw [hread, hv, State.scrRead_scrWrite_other _ _ _ _ _ _ (by simpa using hbk)]
    rfl

end Sys2Proof.Machine
end

section
/-! SUPPORT. A run with more than one lane (43_chunk_merkle.md R151, R152, R163): what holds at every step of it, whatever
lane's turn it is. -/

namespace Sys2Proof.Machine

/-! ### What holds along a run -/

/-- Task `k` of the level has been taken and no lane works on it any more. -/
def State.Finished (s : State) (k : Nat) : Prop := k ∈ s.team.taken ∧ k ∉ s.working

/-- Slot `k` of the level being made holds the level's entry `k`; the root is stored in no slot. -/
def State.Made (s : State) (input : Nat → Byte) (k : Nat) : Prop :=
  s.drv.phase ≠ .root → s.scrRead s.levelBank k = levelCv input s.levelBank k

/-- What no step of a run with more than one lane changes, for the IN the run has and the `2^n` chunks it is over. -/
structure State.SharedConfig (s : State) (mem : Memory) (n : Nat) : Prop where
  size : 10 ≤ n
  romFixed : s.rom = uopRom
  inMem : s.inMem = mem
  others : s.team.parked ≠ []
  status : s.status = statusBusy
  nreg : s.drv.nreg.toNat = 2 ^ n
  logn : s.drv.logn.toNat = n

/-- A run with more than one lane that has not ended: the level the lanes read has been stored whole, of the level they
make the finished tasks have been, and every lane that works stands where it should with its task. -/
structure State.SharedRun (s : State) (mem : Memory) (n : Nat) : Prop where
  config : s.SharedConfig mem n
  active : s.drv.phase ≠ .idle
  level : s.drv.phase = .parent → 1 ≤ s.drv.lvl.toNat ∧ s.drv.lvl.toNat < n
  tasks : s.SharedInv
  source : s.drv.phase ≠ .leaf → s.Holds mem.read s.sourceLevel (2 * s.levelTasks)
  made : ∀ k, s.Finished k → s.Made mem.read k
  computes : ∀ p ∈ s.seats, p.waiting = false → p.lane.Computes mem.read (s.drv.atSeat p)

section
variable {s : State} {mem : Memory} {n : Nat}

/-! ### The lanes replaced inside a level -/

theorem State.SharedRun.withLanes (h : s.SharedRun mem n) {p : Seat} {parked : List Seat} {taken : List Nat}
    {stored : Nat} (hothers : parked ≠ []) (htasks : (s.withLanes p parked taken stored).SharedInv)
    (hmade : ∀ k, (s.withLanes p parked taken stored).Finished k → s.Made mem.read k)
    (hcomputes : ∀ q ∈ p :: parked, q.waiting = false → q.lane.Computes mem.read (s.drv.atSeat q)) :
    (s.withLanes p parked taken stored).SharedRun mem n where
  config := ⟨h.config.size, h.config.romFixed, h.config.inMem, hothers, h.config.status, h.config.nreg, h.config.logn⟩
  active := h.active
  level := h.level
  tasks := htasks
  source := h.source
  made := hmade
  computes := hcomputes

/-- The turn stays where it is. -/
theorem State.SharedRun.withSeat (h : s.SharedRun mem n) {p : Seat} {taken : List Nat} {stored : Nat}
    (htasks : (s.withLanes p s.team.parked taken stored).SharedInv)
    (hmade : ∀ k, (s.withLanes p s.team.parked taken stored).Finished k → s.Made mem.read k)
    (hcomputes : p.waiting = false → p.lane.Computes mem.read (s.drv.atSeat p)) :
    (s.withLanes p s.team.parked taken stored).SharedRun mem n :=
  h.withLanes h.config.others htasks hmade <| List.forall_mem_cons.mpr
    ⟨hcomputes, fun q hm => h.computes q (List.mem_cons_of_mem _ hm)⟩

/-- The lane whose turn it is, with its task. -/
theorem State.SharedRun.lane_computes (h : s.SharedRun mem n) (hw : s.team.waiting = false) :
    s.lane.Computes mem.read s.drv := h.computes s.seat List.mem_cons_self hw

theorem State.SharedRun.task_lt (h : s.SharedRun mem n) (hw : s.team.waiting = false) :
    s.seat.task s.drv.phase < s.levelTasks :=
  h.tasks.inLevel _ (h.tasks.workTaken _ (State.task_mem_working hw))

theorem State.SharedRun.passTurn (h : s.SharedRun mem n) : s.passTurn.SharedRun mem n := by
  obtain ⟨p, rest, hq⟩ := List.exists_cons_of_ne_nil h.config.others
  have hpass : s.passTurn = s.withLanes p (rest ++ [s.seat]) s.team.taken s.team.stored := by
    unfold State.passTurn
    rw [hq]
    rfl
  have hseats : s.passTurn.seats.Perm s.seats := by
    rw [State.passTurn_seats]
    exact List.perm_append_singleton _ _
  have hwork := State.working_perm s.passTurn_phase hseats
  rw [hpass] at hwork hseats ⊢
  exact h.withLanes (by simp) (h.tasks.withLanes hwork)
    (fun k hk => h.made k ⟨hk.1, fun hm => hk.2 (hwork.mem_iff.mpr hm)⟩)
    fun q hm => h.computes q (hseats.mem_iff.mp hm)

theorem State.SharedRun.turnTo (h : s.SharedRun mem n) (k : Nat) : (s.turnTo k).SharedRun mem n :=
  State.turnTo_induct (P := fun u => u.SharedRun mem n) (fun _ hu => hu.passTurn) k h

/-! ### A lane takes a task -/

/-- Every task fits its register. -/
theorem State.levelTasks_lt_two_pow (s : State) : s.levelTasks < 2 ^ 64 := by
  have hlt := s.drv.nreg.isLt
  have hsize : s.levelSize ≤ s.drv.nreg.toNat := Nat.shiftRight_le _ _
  unfold State.levelTasks
  split <;> omega

theorem State.task_seatAtTask (hp : s.drv.phase ≠ .idle) {k : Nat} (hk : k < s.levelTasks) :
    (s.seatAtTask k).task s.drv.phase = k := by
  have hfit : k < 2 ^ 64 := hk.trans s.levelTasks_lt_two_pow
  cases hd : s.drv.phase with
  | idle => exact absurd hd hp
  | root => simpa [State.levelTasks, hd, Seat.task, eq_comm] using hk
  | leaf | parent => simpa [Seat.task, State.seatAtTask, State.take, State.seat, Driver.atTask, hd] using hfit

theorem State.SharedRun.take (h : s.SharedRun mem n) (hw : s.team.waiting = true) {k : Nat} (hk : k < s.levelTasks)
    (hnew : k ∉ s.team.taken) : (s.take k).SharedRun mem n := by
  rw [State.take_eq_withLanes]
  refine h.withSeat (h.tasks.take hw hk hnew (State.task_seatAtTask h.active hk)) (fun j hj => ?_) fun _ => ?_
  · obtain ⟨htaken, hfree⟩ := hj
    rw [State.working_of_task rfl] at hfree
    obtain ⟨hne, hothers⟩ := not_or.mp (mt List.mem_cons.mpr hfree)
    have hjk : j ≠ k := fun heq => hne (heq.trans (State.task_seatAtTask h.active hk).symm)
    exact h.made j ⟨(List.mem_cons.mp htaken).resolve_left hjk, by rw [State.working_of_waiting hw]; exact hothers⟩
  · refine Lane.computes_of_load (d := s.drv.atSeat (s.seatAtTask k)) (State.sub_seatAtTask h.active k)
      (fun hph => ?_) _ _
    change (s.drv.atTask k).bj = 0
    rw [Driver.atTask, show s.drv.phase = .leaf from hph]

/-! ### A lane stays with its task -/

theorem State.SharedRun.stay (h : s.SharedRun mem n) (hw : s.team.waiting = false) {lane : Lane} {sub : Sub}
    {bj : BitVec 4} (hlane : lane.Computes mem.read { s.drv with sub := sub, bj := bj }) :
    { s with lane := lane, drv := { s.drv with sub := sub, bj := bj } }.SharedRun mem n := by
  have hwork : { s with lane := lane, drv := { s.drv with sub := sub, bj := bj } }.working = s.working :=
    (State.working_of_task (s := { s with lane := lane, drv := { s.drv with sub := sub, bj := bj } }) hw).trans
      (State.working_of_task hw).symm
  exact h.withSeat (p := { s.seat with lane := lane, sub := sub, bj := bj }) (h.tasks.withLanes (.of_eq hwork))
    (fun k hk => h.made k ⟨hk.1, fun hm => hk.2 (hwork ▸ hm)⟩) fun _ => hlane

/-- A LOAD of the operands of the lane's compression. -/
theorem State.SharedRun.load (h : s.SharedRun mem n) (hw : s.team.waiting = false) {cv : CVal} {m : Block}
    {cnt : BitVec 64} {flg : Word} (hop : ⟨cv, m, cnt, flg⟩ = s.drv.operands mem.read) :
    (s.loadOperands cv m cnt flg).SharedRun mem n :=
  h.stay (bj := s.drv.bj) hw (Lane.computes_loaded hop s.lane.s)

theorem State.SharedRun.inRead (h : s.SharedRun mem n) : s.inRead = mem.read :=
  congrArg Memory.read h.config.inMem

theorem State.SharedRun.leafLoad (h : s.SharedRun mem n) (hw : s.team.waiting = false) (hph : s.drv.phase = .leaf)
    (hsub : s.drv.sub = .load) : s.leafLoaded.SharedRun mem n := by
  have hchained := (h.lane_computes hw).chained hph hsub
  rw [← h.inRead] at hchained
  rw [State.leafLoaded_eq hph hchained, h.inRead]
  exact h.load hw rfl

/-- A LOAD of two children takes the entries of the level below that the task combines. -/
theorem State.SharedRun.childrenLoad (h : s.SharedRun mem n) (hw : s.team.waiting = false) (hph : s.drv.phase ≠ .leaf)
    {b k : Nat} (hb : b % 2 = s.sourceLevel % 2) (hk : k + 1 < 2 * s.levelTasks) {flg : Word}
    (hop : ⟨iv, parentBlock (levelCv mem.read s.sourceLevel k) (levelCv mem.read s.sourceLevel (k + 1)), 0, flg⟩ =
      s.drv.operands mem.read) : (s.childrenLoaded b k flg).SharedRun mem n := by
  have hread (i : Nat) (hi : i < 2 * s.levelTasks) : s.scrRead b i = levelCv mem.read s.sourceLevel i :=
    (State.scrRead_congr hb s i).trans (h.source hph i hi)
  rw [State.childrenLoaded, hread k (by omega), hread (k + 1) hk]
  exact h.load hw hop

theorem State.SharedRun.parentLoad (h : s.SharedRun mem n) (hw : s.team.waiting = false) (hph : s.drv.phase = .parent) :
    (s.childrenLoaded s.parentSource (2 * s.drv.node.toNat) parentFlags).SharedRun mem n := by
  obtain ⟨hpos, -⟩ := h.level hph
  have htask := h.task_lt hw
  rw [State.task_parent hph] at htask
  have hlevel : s.sourceLevel = s.drv.lvl.toNat - 1 := by simp [State.sourceLevel, hph]
  refine h.childrenLoad hw (by simp [hph]) ?_ (by omega) ?_
  · rw [State.parentSource, toNat_sub_one_of_pos hpos, hlevel, Nat.mod_mod]
  · rw [hlevel, Driver.operands_parent hph]

theorem State.SharedRun.rootLoad (h : s.SharedRun mem n) (hw : s.team.waiting = false) (hph : s.drv.phase = .root) :
    (s.childrenLoaded s.rootSource 0 rootFlags).SharedRun mem n := by
  have hsize := h.config.size
  have hlogn := h.config.logn
  have hlevel : s.sourceLevel = s.drv.logn.toNat - 1 := by simp [State.sourceLevel, hph]
  refine h.childrenLoad hw (by simp [hph]) ?_ (by simp [State.levelTasks, hph]) ?_
  · rw [State.rootSource, toNat_sub_one_of_pos (by omega), hlevel, Nat.mod_mod]
  · rw [hlevel, Driver.operands_root hph]

/-- A RUN step runs the next uop of COMPRESS. -/
theorem runStep_of_rom (hrom : s.rom = uopRom) :
    runStep s = .next { s with lane := s.lane.uop s.lane.nextUop }.afterUop := by
  have hd : decodeUop s.fetchUop = .ok s.lane.nextUop := by
    rw [State.fetchUop, hrom]
    exact decodeUop_rom s.lane.upc.toFin
  exact runStep_of_decode hd (exec_uop_eq hd s)

theorem State.SharedRun.uop (h : s.SharedRun mem n) (hw : s.team.waiting = false) (hsub : s.drv.sub = .run) :
    { s with lane := s.lane.uop s.lane.nextUop }.afterUop.SharedRun mem n := by
  have hlane := h.lane_computes hw
  unfold State.afterUop
  rw [Lane.upc_uop]
  split
  · next hupc =>
    have hdone := hlane.afterCompression hsub hupc
    unfold Driver.afterCompression at hdone ⊢
    split at hdone
    · next hmore => rw [if_pos hmore]; exact h.stay hw hdone
    · next hend => rw [if_neg hend]; exact h.stay (bj := s.drv.bj) hw hdone
  · next hupc => exact h.stay hw (hlane.advance hsub hupc)

/-! ### A STORE step writes its slot -/

theorem State.SharedInv.scrWrite (h : s.SharedInv) (b k : Nat) (cv : CVal) : (s.scrWrite b k cv).SharedInv := by
  have hstored := fun i (hi : s.Stored i) => hi.scrWrite b k cv
  rw [State.scrWrite_eq] at hstored ⊢
  exact ⟨h.once, h.inLevel, h.incomplete, h.workOnce, h.workTaken, h.counted,
    fun i hi hn => hstored i (h.rest i hi hn)⟩

/-- The level below lives in the other bank (R153). -/
theorem State.sourceLevel_bank_ne (hph : s.drv.phase = .parent) (hpos : 1 ≤ s.drv.lvl.toNat) :
    s.sourceLevel % 2 ≠ s.levelBank % 2 := by
  simp only [State.sourceLevel, State.levelBank, hph, reduceCtorEq, if_false, if_true]
  omega

/-- A STORE of entry `i` of the level makes it, and keeps the entries made. -/
theorem State.made_scrWrite {input : Nat → Byte} {b i k : Nat} {cv : CVal} (hb : b % 2 = s.levelBank % 2)
    (hcv : cv = levelCv input s.levelBank i) (hk : k = i ∨ s.Made input k) : (s.scrWrite b i cv).Made input k := by
  intro hroot
  rw [State.scrWrite_drv] at hroot
  rw [State.scrWrite_levelBank]
  by_cases hki : k = i
  · rw [hki, State.scrRead_congr hb.symm, State.scrRead_scrWrite_same, hcv]
  · rw [State.scrRead_scrWrite_other _ _ _ _ _ _ (.inr hki)]
    exact hk.resolve_left hki hroot

/-- A STORE of the entry of the lane's task keeps what holds along the run. -/
theorem State.SharedRun.scrWrite (h : s.SharedRun mem n) (hroot : s.drv.phase ≠ .root) {b i : Nat} {cv : CVal}
    (hb : b % 2 = s.levelBank % 2) (hcv : cv = levelCv mem.read s.levelBank i) :
    (s.scrWrite b i cv).SharedRun mem n := by
  have htasks := h.tasks.scrWrite b i cv
  have hmade (k : Nat) (hk : s.Finished k) := State.made_scrWrite hb hcv (.inr (h.made k hk))
  have hsource (hleaf : s.drv.phase ≠ .leaf) := by
    have hph : s.drv.phase = .parent := by
      cases hd : s.drv.phase with
      | idle => exact absurd hd h.active
      | leaf => exact absurd hd hleaf
      | parent => rfl
      | root => exact absurd hd hroot
    have hother := State.sourceLevel_bank_ne hph (h.level hph).1
    exact (h.source hleaf).scrWrite (i := i) (.inl (hb ▸ hother)) cv
  rw [State.scrWrite_eq] at htasks hmade hsource ⊢
  exact ⟨⟨h.config.size, h.config.romFixed, h.config.inMem, h.config.others, h.config.status, h.config.nreg,
    h.config.logn⟩, h.active, h.level, htasks, hsource, hmade, h.computes⟩

/-! ### After a STORE: the lane waits, or the level ends -/

/-- While the level is not complete the lane waits for its next task. -/
theorem State.SharedRun.await (h : s.SharedRun mem n) (hw : s.team.waiting = false)
    (hstored : s.Stored (s.seat.task s.drv.phase)) (hmade : s.Made mem.read (s.seat.task s.drv.phase))
    (hmore : s.team.stored + 1 < s.levelTasks) :
    { s with drv := { s.drv with sub := .load }
             team := { s.team with waiting := true, stored := s.team.stored + 1 } }.SharedRun mem n := by
  refine h.withSeat (p := { s.seat with sub := .load, waiting := true }) (h.tasks.await hw hstored hmore)
    (fun k hk => ?_) nofun
  obtain ⟨htaken, hfree⟩ := hk
  rw [State.working_of_waiting rfl] at hfree
  by_cases hself : k = s.seat.task s.drv.phase
  · exact hself ▸ hmade
  · exact h.made k ⟨htaken, by rw [State.working_of_task hw]; exact List.not_mem_cons_of_ne_of_not_mem hself hfree⟩

/-- At the last STORE of a level every other task is finished (R152). -/
theorem State.SharedInv.finished_of_last (h : s.SharedInv) (hw : s.team.waiting = false)
    (hlast : s.levelTasks ≤ s.team.stored + 1) {k : Nat} (hk : k < s.levelTasks)
    (hother : k ≠ s.seat.task s.drv.phase) : s.Finished k := by
  have hwork := State.working_of_task hw
  have hcounted := h.counted
  rw [hwork, List.length_cons] at hcounted
  have hle : s.team.taken.length ≤ s.levelTasks := by
    simpa using (h.once.subperm (l₂ := List.range s.levelTasks)
      fun j hj => List.mem_range.mpr (h.inLevel j hj)).length_le
  have hothers : s.othersWorking = [] := List.eq_nil_of_length_eq_zero (by omega)
  exact ⟨taken_all h.once h.inLevel (by omega) k hk, by simp [hwork, hothers, hother]⟩

theorem State.working_of_atStart (hteam : s.team.AtStart) (hq : s.team.parked ≠ []) : s.working = [] := by
  obtain ⟨hw, hothers⟩ := hteam.waits hq
  rw [State.working_of_waiting hw, State.othersWorking,
    List.filter_eq_nil_iff.mpr fun p hm => by simp [hothers p hm], List.map_nil]

/-- At the start of a level every lane waits, and what is asked is that the level the lanes read is there whole. -/
theorem State.SharedConfig.startLevel (h : s.SharedConfig mem n) (hteam : s.team.AtStart) (hp : s.drv.phase ≠ .idle)
    (hlevel : s.drv.phase = .parent → 1 ≤ s.drv.lvl.toNat ∧ s.drv.lvl.toNat < n) (hsome : 0 < s.levelTasks)
    (hsource : s.drv.phase ≠ .leaf → s.Holds mem.read s.sourceLevel (2 * s.levelTasks)) : s.SharedRun mem n := by
  obtain ⟨hw, hothers⟩ := hteam.waits h.others
  obtain ⟨htaken, hstored⟩ := hteam.none h.others
  have hwork := State.working_of_atStart hteam h.others
  refine ⟨h, hp, hlevel, ?_, hsource, fun k hk => ?_, fun p hm hworks => ?_⟩
  · constructor <;> simp [htaken, hstored, hwork, hsome]
  · simp [State.Finished, htaken] at hk
  · rcases List.mem_cons.mp hm with rfl | hm
    · exact absurd (hw.symm.trans hworks) nofun
    · exact absurd ((hothers p hm).symm.trans hworks) nofun

/-- What the configuration asks of the driver is NREG and LOGN, and of the lanes that there are others. -/
theorem State.SharedConfig.next (h : s.SharedConfig mem n) (d : Driver) (hnreg : d.nreg = s.drv.nreg)
    (hlogn : d.logn = s.drv.logn) : { s with drv := d, team := s.team.fresh }.SharedConfig mem n :=
  ⟨h.size, h.romFixed, h.inMem, by simpa [Team.fresh] using h.others, h.status, hnreg ▸ h.nreg, hlogn ▸ h.logn⟩

/-- After a STORE of the lane's task the run goes on, if it goes on from the next level once the whole level is made. -/
theorem State.SharedRun.afterStore (h : s.SharedRun mem n) (hw : s.team.waiting = false)
    (hstored : s.Stored (s.seat.task s.drv.phase)) (hmade : s.Made mem.read (s.seat.task s.drv.phase))
    {alone next : Driver} (hnext : (∀ k < s.levelTasks, s.Made mem.read k) →
      { s with drv := next, team := s.team.fresh }.SharedRun mem n) :
    (s.afterStore alone next).SharedRun mem n := by
  rcases s.afterStore_cases alone next with ⟨hq, -⟩ | ⟨-, hmore, heq⟩ | ⟨-, hlast, heq⟩
  · exact absurd hq h.config.others
  · rw [heq]
    exact h.await hw hstored hmade hmore
  · rw [heq]
    refine hnext fun k hk => ?_
    by_cases hself : k = s.seat.task s.drv.phase
    · exact hself ▸ hmade
    · exact h.made k (h.tasks.finished_of_last hw hlast hk hself)

/-! ### The next level -/

/-- The first node of a parent level whose source has been made whole. -/
theorem State.SharedConfig.startParents (h : s.SharedConfig mem n) (hteam : s.team.AtStart)
    (hph : s.drv.phase = .parent) (hpos : 1 ≤ s.drv.lvl.toNat) (hlt : s.drv.lvl.toNat < n)
    (hsource : s.Holds mem.read (s.drv.lvl.toNat - 1) (2 ^ (n - (s.drv.lvl.toNat - 1)))) : s.SharedRun mem n := by
  have htasks : s.levelTasks = 2 ^ (n - s.drv.lvl.toNat) := by
    rw [State.levelTasks, hph]
    exact s.levelSize_eq n h.nreg hlt.le
  have hlevel : s.sourceLevel = s.drv.lvl.toNat - 1 := by simp [State.sourceLevel, hph]
  refine h.startLevel hteam (by simp [hph]) (fun _ => ⟨hpos, hlt⟩) (htasks ▸ Nat.two_pow_pos _) fun _ => ?_
  rw [hlevel, htasks, ← pow_succ', show n - s.drv.lvl.toNat + 1 = n - (s.drv.lvl.toNat - 1) by omega]
  exact hsource

/-- After the last leaf the first parent level begins (R158). -/
theorem State.SharedRun.afterLeaves (h : s.SharedRun mem n) (hph : s.drv.phase = .leaf)
    (hall : ∀ k < s.levelTasks, s.Made mem.read k) :
    { s with drv := s.drv.afterLeaves, team := s.team.fresh }.SharedRun mem n := by
  have hsize := h.config.size
  have htasks : s.levelTasks = 2 ^ n := by rw [State.levelTasks, hph, ← h.config.nreg]
  have hbank : s.levelBank = 0 := by simp [State.levelBank, hph]
  refine (h.config.next s.drv.afterLeaves rfl rfl).startParents (Team.fresh_atStart _) rfl le_rfl (by change 1 < n; omega)
    fun k hk => ?_
  have hmade := hall k (htasks ▸ hk) (by simp [hph])
  rw [hbank] at hmade
  exact hmade

/-- After the last node of a level the next level begins, or the root (R160). -/
theorem State.SharedRun.afterLevel (h : s.SharedRun mem n) (hph : s.drv.phase = .parent)
    (hall : ∀ k < s.levelTasks, s.Made mem.read k) :
    { s with drv := s.drv.afterLevel, team := s.team.fresh }.SharedRun mem n := by
  obtain ⟨hpos, hlt⟩ := h.level hph
  have hlogn := h.config.logn
  have htasks : s.levelTasks = 2 ^ (n - s.drv.lvl.toNat) := by
    rw [State.levelTasks, hph]
    exact s.levelSize_eq n h.config.nreg hlt.le
  have hbank : s.levelBank = s.drv.lvl.toNat := by simp [State.levelBank, hph]
  have hholds : s.Holds mem.read s.drv.lvl.toNat (2 ^ (n - s.drv.lvl.toNat)) := fun k hk => by
    have hmade := hall k (htasks ▸ hk) (by simp [hph])
    rwa [hbank] at hmade
  unfold Driver.afterLevel
  split
  · next hmore =>
    have hsucc : (s.drv.lvl + 1).toNat = s.drv.lvl.toNat + 1 :=
      BitVec.toNat_add_of_lt (by have := s.drv.logn.isLt; change _ + 1 < _; omega)
    have hbelow : (s.drv.lvl + 1).toNat - 1 = s.drv.lvl.toNat := by omega
    rw [← hbelow] at hholds
    exact (h.config.next { s.drv with lvl := s.drv.lvl + 1, node := 0, sub := .load } rfl rfl).startParents
      (Team.fresh_atStart _) hph (by change 1 ≤ (s.drv.lvl + 1).toNat; omega)
      (by change (s.drv.lvl + 1).toNat < n; omega) hholds
  · next hend =>
    have hlast : s.drv.lvl.toNat = s.drv.logn.toNat - 1 := by omega
    rw [hlast, show n - (s.drv.logn.toNat - 1) = 1 by omega] at hholds
    exact (h.config.next { s.drv with phase := .root, sub := .load } rfl rfl).startLevel (Team.fresh_atStart _) nofun
      nofun Nat.one_pos fun _ => hholds

/-! ### STORE steps -/

theorem State.SharedRun.leafStore (h : s.SharedRun mem n) (hw : s.team.waiting = false) (hph : s.drv.phase = .leaf)
    (hsub : s.drv.sub = .store) : (s.scrWrite 0 s.drv.ci.toNat s.lane.cv).afterLeaf.SharedRun mem n := by
  have hlane := h.lane_computes hw
  have hbank : s.levelBank = 0 := by simp [State.levelBank, hph]
  have hb : 0 % 2 = s.levelBank % 2 := by rw [hbank]
  have hcv : s.lane.cv = levelCv mem.read s.levelBank s.drv.ci.toNat := by
    rw [hbank, hlane.result hsub, Driver.result_lastBlock hph (hlane.lastBlock hph hsub)]
  have hstored := State.stored_scrWrite_same hb.symm s.drv.ci.toNat s.lane.cv
  have hmade := State.made_scrWrite hb hcv (.inl rfl)
  have hrun := h.scrWrite (by simp [hph]) hb hcv
  set u := s.scrWrite 0 s.drv.ci.toNat s.lane.cv
  have hph' : u.drv.phase = .leaf := by rw [State.scrWrite_drv, hph]
  have hw' : u.team.waiting = false := by rw [State.scrWrite_team, hw]
  have hload := hrun.stay (lane := u.lane) (sub := .load) (bj := 0) hw'
    (Lane.computes_of_load rfl (fun _ => rfl) _ _)
  set v : State := { u with drv := { u.drv with sub := .load, bj := 0 } }
  have htask : v.seat.task v.drv.phase = s.drv.ci.toNat := by
    rw [State.task_leaf (s := v) hph']
    change u.drv.ci.toNat = _
    rw [State.scrWrite_drv]
  change (v.afterStore v.drv.afterLeafStore v.drv.afterLeaves).SharedRun mem n
  exact hload.afterStore hw' (htask ▸ hstored) (htask ▸ hmade) (hload.afterLeaves hph')

theorem State.SharedRun.parentStore (h : s.SharedRun mem n) (hw : s.team.waiting = false)
    (hph : s.drv.phase = .parent) (hsub : s.drv.sub = .store) :
    (s.scrWrite (s.drv.lvl.toNat % 2) s.drv.node.toNat s.lane.cv).afterParent.SharedRun mem n := by
  have hbank : s.levelBank = s.drv.lvl.toNat := by simp [State.levelBank, hph]
  have hb : s.drv.lvl.toNat % 2 % 2 = s.levelBank % 2 := by rw [hbank, Nat.mod_mod]
  have hcv : s.lane.cv = levelCv mem.read s.levelBank s.drv.node.toNat := by
    rw [hbank, (h.lane_computes hw).result hsub, Driver.result_parent hph (h.level hph).1]
  have hstored := State.stored_scrWrite_same hb.symm s.drv.node.toNat s.lane.cv
  have hmade := State.made_scrWrite hb hcv (.inl rfl)
  have hrun := h.scrWrite (by simp [hph]) hb hcv
  set u := s.scrWrite (s.drv.lvl.toNat % 2) s.drv.node.toNat s.lane.cv
  have hph' : u.drv.phase = .parent := by rw [State.scrWrite_drv, hph]
  have htask : u.seat.task u.drv.phase = s.drv.node.toNat := by rw [State.task_parent hph', State.scrWrite_drv]
  exact hrun.afterStore (by rw [State.scrWrite_team, hw]) (htask ▸ hstored) (htask ▸ hmade)
    (hrun.afterLevel hph')

end

end Sys2Proof.Machine
end

section
/-! SUPPORT. A run with any number of lanes under any schedule of lane turns and host requests (43_chunk_merkle.md R163,
R190): every step goes on with it or ends it. -/

namespace Sys2Proof.Machine

section
variable {s t : State} {mem : Memory} {n : Nat}

/-! ### A turn of a lane -/

/-- EXPORT ends the run (R162). -/
theorem State.SharedRun.exportDigest (h : s.SharedRun mem n) (hw : s.team.waiting = false) (hph : s.drv.phase = .root)
    (hsub : s.drv.sub = .store) (ht : exportDigest s = .next t) : t.LoneEnd mem n := by
  have hcv : s.lane.cv = rootCv mem.read n := by
    rw [(h.lane_computes hw).result hsub, Driver.result_root hph, h.config.logn]
  cases ht
  exact ⟨rfl, rfl, hcv, congrArg digestFromCv hcv, h.config.inMem⟩

/-- A step of a lane with a task goes on with the run, or is EXPORT and ends it. -/
theorem State.SharedRun.fsmStep (h : s.SharedRun mem n) (hw : s.team.waiting = false) (ht : fsmStep s = .next t) :
    t.SharedRun mem n ∨ t.LoneEnd mem n := by
  rcases fsmStep_cases ht with ⟨hidle, -⟩ | ⟨-, hsub, hrun⟩ | ⟨hph, hsub, hload⟩ | ⟨hph, hsub, hstore⟩ |
    ⟨hph, -, hload⟩ | ⟨hph, hsub, hstore⟩ | ⟨hph, -, hload⟩ | ⟨hph, hsub, hexp⟩
  · exact absurd hidle h.active
  · rw [runStep_of_rom h.config.romFixed] at hrun
    cases hrun
    exact .inl (h.uop hw hsub)
  · obtain ⟨-, rfl⟩ := leafLoad_next hload
    exact .inl (h.leafLoad hw hph hsub)
  · obtain ⟨-, rfl⟩ := leafStore_next hstore
    exact .inl (h.leafStore hw hph hsub)
  · obtain ⟨-, rfl⟩ := parentLoad_next hload
    exact .inl (h.parentLoad hw hph)
  · obtain ⟨-, rfl⟩ := parentStore_next hstore
    exact .inl (h.parentStore hw hph hsub)
  · obtain ⟨-, rfl⟩ := rootLoad_next hload
    exact .inl (h.rootLoad hw hph)
  · exact .inr (h.exportDigest hw hph hsub hexp)

theorem State.SharedRun.laneStep (h : s.SharedRun mem n) {pick : Nat} (ht : laneStep pick s = .next t) :
    t.SharedRun mem n ∨ t.LoneEnd mem n := by
  rcases laneStep_cases pick s with ⟨hw, -, heq⟩ | ⟨hw, heq⟩ <;> rw [heq] at ht
  · cases ht
    rcases takeTask_cases pick s with ⟨k, hk, htake⟩ | ⟨-, hpass⟩
    · obtain ⟨hlt, hleft⟩ := State.choose_some hk
      exact .inl (htake ▸ h.take hw hlt hleft)
    · exact .inl (hpass ▸ h.passTurn)
  · exact h.fsmStep (hw.resolve_right h.active) ht

/-! ### A run with any number of lanes -/

/-- A run that has not ended, with one lane or with more. -/
def State.Runs (s : State) (mem : Memory) (n : Nat) : Prop := s.LoneRun mem n ∨ s.SharedRun mem n

theorem State.Runs.active (h : s.Runs mem n) : s.drv.phase ≠ .idle := h.elim (·.active) (·.active)

theorem State.Runs.status (h : s.Runs mem n) : s.status = statusBusy := h.elim (·.config.status) (·.config.status)

theorem State.Runs.logn (h : s.Runs mem n) : s.drv.logn.toNat = n := h.elim (·.config.logn) (·.config.logn)

theorem State.Runs.source (h : s.Runs mem n) (hph : s.drv.phase ≠ .leaf) :
    s.Holds mem.read s.sourceLevel (2 * s.levelTasks) := h.elim (·.source hph) (·.source hph)

/-- The run does not depend on LEN and the port. -/
theorem State.Runs.withHost (h : s.Runs mem n) (lo hi : Word) (port : Port) :
    { s with lenLo := lo, lenHi := hi, port := port }.Runs mem n :=
  h.imp (·.withHost lo hi port) fun h =>
    ⟨⟨h.config.size, h.config.romFixed, h.config.inMem, h.config.others, h.config.status, h.config.nreg,
      h.config.logn⟩, h.active, h.level, ⟨h.tasks.once, h.tasks.inLevel, h.tasks.incomplete, h.tasks.workOnce,
      h.tasks.workTaken, h.tasks.counted, h.tasks.rest⟩, h.source, h.made, h.computes⟩

theorem State.Runs.laneTurn (h : s.Runs mem n) {lane pick : Nat} (ht : laneTurn lane pick s = .next t) :
    t.Runs mem n ∨ t.LoneEnd mem n := by
  rw [Machine.laneTurn, if_neg h.active] at ht
  rcases h with hlone | hshared
  · rw [State.turnTo_alone hlone.config.alone, laneStep_working hlone.config.works, ← hlone.coreStep_eq] at ht
    obtain ⟨u, hu, hnext | ⟨-, hend⟩⟩ := hlone.coreStep <;> cases hu.symm.trans ht
    · exact .inl (.inl hnext.1)
    · exact .inr hend
  · exact ((hshared.turnTo lane).laneStep ht).imp_left .inr

/-- A host request leaves the run alone. -/
theorem State.Runs.hostStep (h : s.Runs mem n) {r : HostRequest} (ht : hostStep r s = .next t) : t.Runs mem n := by
  have hbusy : s.busy = true := by rw [State.busy, h.status]; rfl
  rw [(hostStep_move ht).eq_of_busy hbusy]
  exact h.withHost _ _ _

/-- Short of a reset every step goes on with the run or ends it. -/
theorem State.Runs.step (h : s.Runs mem n) (hinbox : ∀ e ∈ s.port.inbox, e ≠ .reset) (ht : step s = .next t) :
    t.Runs mem n ∨ t.LoneEnd mem n := by
  have hrun := h.withHost s.lenLo s.lenHi { s.port with inbox := s.port.inbox.tail }
  rcases step_agent_cases s with ⟨lane, pick, -, heq⟩ | ⟨r, -, heq⟩ | ⟨hreset, -⟩
  · exact hrun.laneTurn (heq ▸ ht)
  · exact .inl (hrun.hostStep (heq ▸ ht))
  · exact absurd rfl (hinbox _ (List.mem_of_head? hreset))

/-! ### The events to come -/

theorem laneTurn_port {lane pick : Nat} (ht : laneTurn lane pick s = .next t) : t.port = s.port := by
  rcases laneTurn_move ht with ⟨-, rfl⟩ | ⟨-, hmove⟩
  · rfl
  · exact (congrArg State.port hmove.frame).trans (s.turnTo_port lane)

/-- A step takes one event off the inbox. -/
theorem step_inbox (ht : step s = .next t) : t.port.inbox = s.port.inbox.tail := by
  rcases step_agent_cases s with ⟨lane, pick, -, heq⟩ | ⟨r, -, heq⟩ | ⟨-, heq⟩ <;> rw [heq] at ht
  · exact congrArg Port.inbox (laneTurn_port ht)
  · obtain ⟨u, hu, hinbox⟩ := hostStep_next r (s.withInbox s.port.inbox.tail)
    cases hu.symm.trans ht
    exact hinbox
  · cases ht
    rfl

/-! ### A run under a schedule -/

/-- Under a schedule without a reset, up to where the machine first comes to IDLE: the run goes on with DOUT as it was,
or has just ended. -/
theorem State.Runs.run (h : s.Runs mem n) (hinbox : ∀ e ∈ s.port.inbox, e ≠ .reset) {k : Nat}
    (ht : run k s = .next t) (hactive : ∀ j < k, ∀ u, run j s = .next u → u.drv.phase ≠ .idle) :
    (t.Runs mem n ∧ t.dout = s.dout) ∨ t.LoneEnd mem n := by
  induction k generalizing s with
  | zero =>
    cases ht
    exact .inl ⟨h, rfl⟩
  | succ k ih =>
    obtain ⟨u, hu, hrest⟩ := run_succ_next ht
    rcases h.step hinbox hu with hrun | hend
    · have hinbox' : ∀ e ∈ u.port.inbox, e ≠ .reset := by
        rw [step_inbox hu]
        exact fun e he => hinbox e (List.mem_of_mem_tail he)
      refine (ih hrun hinbox' hrest fun j hj v hv => ?_).imp_left (.imp_right (·.trans (dout_eq_of_busy hu hrun.status)))
      exact hactive (j + 1) (by omega) v ((run_succ hu j).trans hv)
    · cases k with
      | zero =>
        cases hrest
        exact .inr hend
      | succ k => exact absurd hend.idle (hactive 1 (by omega) u ((run_one s).trans hu))

/-- The state HASH leaves begins a run. -/
theorem State.RunStart.runs (h : s.RunStart n) : s.Runs s.inMem n := by
  by_cases hq : s.team.parked = []
  · exact .inl (h.loneRun (by rw [State.lanes, hq]; rfl)).1
  · have hteam : s.team.AtStart := h.team ▸ Team.fresh_atStart _
    refine .inr (State.SharedConfig.startLevel ⟨h.sizes.1, h.romFixed, rfl, hq, h.status, h.nreg, h.logn⟩ hteam ?_ ?_ ?_
      (absurd h.phase))
    · simp [h.phase]
    · simp [h.phase]
    · rw [State.levelTasks, h.phase]
      exact (Nat.two_pow_pos n).trans_eq h.nreg.symm

end

/-- Settles O36: whoever's turn it is, the run goes on with its level below made whole, until EXPORT ends it. -/
theorem everyLaneScheduleReachesDigest : Obligations.EveryLaneScheduleReachesDigest := by
  intro s t n k hstart hinbox ht hactive
  rcases hstart.runs.run hinbox ht hactive with ⟨hrun, hdout⟩ | hend
  · refine ⟨fun hph => ?_, fun hph => ?_, .inl ⟨hrun.active, hrun.status, hdout⟩⟩
    · have hsource := hrun.source (by simp [hph])
      simp only [State.sourceLevel, State.levelTasks, hph, reduceCtorEq, if_false] at hsource
      exact hsource
    · have hsource := hrun.source (by simp [hph])
      simp only [State.sourceLevel, State.levelTasks, hph, hrun.logn, if_true] at hsource
      exact hsource
  · exact ⟨fun hph => absurd (hend.idle.symm.trans hph) nofun, fun hph => absurd (hend.idle.symm.trans hph) nofun,
      .inr ⟨hend.idle, hend.status, hend.dout⟩⟩

end Sys2Proof.Machine
end

section
/-! SUPPORT. The steps of the driver, one by one (43_chunk_merkle.md R155 to R162), what the lanes do with the tasks of a
level, and that these may be done in any order (R151, R163). -/

namespace Sys2Proof.Machine

/-! ### The idle core (R155) -/

/-- Settles O21: neither the core nor any lane has a step. -/
theorem idleCoreWaits : Obligations.IdleCoreWaits := fun _ hidle =>
  ⟨laneStep_idle hidle 0, fun hinbox => (step_of_no_event hinbox).trans (laneStep_idle hidle 0), laneTurn_idle hidle⟩

/-! ### LOAD steps (R156, R159, R161) -/

theorem leafFlags_eq (bj : BitVec 4) :
    leafFlags bj.toNat = if bj = 0 then 0x1 else if bj = 15 then 0x2 else 0x0 := by
  revert bj
  decide

/-- Word `i` of a block in IN is made of the four bytes from `4i` on. -/
theorem getElem_blockFromLeBytes_bytesAt (input : Nat → Byte) (start : Nat) (i : Fin 16) :
    (blockFromLeBytes (bytesAt input start))[i] =
      wordFromLeBytes #v[input (start + 4 * i.val), input (start + 4 * i.val + 1), input (start + 4 * i.val + 2),
        input (start + 4 * i.val + 3)] := by
  rw [getElem_blockFromLeBytes]
  simp only [bytesAt, getElem_tabulate, Nat.add_assoc]

/-- Settles O22: the LOAD is written out, and each Word is read from four bytes of IN. -/
theorem leafLoadStep : Obligations.LeafLoadStep := by
  intro s hph hsub hworks hin
  refine ⟨_, ?_, getElem_blockFromLeBytes_bytesAt s.inRead s.leafBase⟩
  rw [coreStep_leafLoad hworks hph hsub, ← leafFlags_eq]
  exact if_pos hin

theorem getElem_parentBlock (l r : CVal) (w : Fin 8) :
    (parentBlock l r)[w.val] = l[w] ∧ (parentBlock l r)[8 + w.val] = r[w] := by
  simp [parentBlock]

/-- Settles O25: the level below lives in bank `(LVL − 1) mod 2`, which does not wrap. -/
theorem parentLoadStep : Obligations.ParentLoadStep := by
  intro s hph hsub hworks hlvl hslots
  refine ⟨_, ?_, getElem_parentBlock _ _⟩
  rw [coreStep_parentLoad hworks hph hsub, parentLoad, if_pos hslots, State.parentSource, toNat_sub_one_of_pos hlvl]
  rfl

/-- Settles O27: the last level lives in bank `(LOGN − 1) mod 2`, which does not wrap. -/
theorem rootLoadStep : Obligations.RootLoadStep := by
  intro s hph hsub hworks hlogn hslots
  refine ⟨_, ?_, getElem_parentBlock _ _⟩
  rw [coreStep_rootLoad hworks hph hsub, rootLoad, if_pos hslots, State.rootSource, toNat_sub_one_of_pos hlogn]
  rfl

/-! ### RUN steps (R157) -/

/-- Settles O23: a uop leaves `upc` and the driver for R157 to move. -/
theorem runStepAdvances : Obligations.RunStepAdvances := by
  intro s t i hactive hsub hworks hd hexec
  rw [coreStep_of_run hactive hworks hsub, runStep_of_decode hd hexec]
  rw [exec_uop_eq hd] at hexec
  cases hexec
  rw [State.afterUop, Lane.upc_uop, Driver.afterCompression, apply_ite (fun d : Driver => ({ s with
    lane := s.lane.uop i, drv := d } : State))]

/-! ### The decoded instruction -/

theorem decodeUop_of_decode {u : BitVec 32} {i : Instr} (h : decode (.uop u) = .ok i) : decodeUop u = .ok i := by
  rw [decode] at h
  cases hd : decodeUop u with
  | ok j => rw [hd] at h; cases h; rfl
  | error e => rw [hd] at h; cases h

theorem decodeHost_of_decode {htw : BitVec 40} {addr : Nat} {i : Instr} (h : decode (.host htw addr) = .ok i) :
    decodeHost htw addr = .ok i := by
  rw [decode] at h
  cases hd : decodeHost htw addr with
  | ok j => rw [hd] at h; cases h; rfl
  | error e => rw [hd] at h; cases h

theorem step_of_nextTurn {s : State} {lane pick : Nat} (h : s.nextTurn = some (lane, pick)) :
    step s = laneTurn lane pick (s.withInbox s.port.inbox.tail) := by
  rcases step_agent_cases s with ⟨lane', pick', hturn, heq⟩ | ⟨r, hr, -⟩ | ⟨hreset, -⟩
  · cases hturn.symm.trans h
    exact heq
  · obtain ⟨rest, hinbox⟩ := List.head?_eq_some_iff.mp hr
    simp [State.nextTurn, hinbox] at h
  · obtain ⟨rest, hinbox⟩ := List.head?_eq_some_iff.mp hreset
    simp [State.nextTurn, hinbox] at h

theorem State.turnTo_phase (s : State) (n : Nat) : (s.turnTo n).drv.phase = s.drv.phase :=
  State.turnTo_induct (P := fun u => u.drv.phase = s.drv.phase) (fun u hu => u.passTurn_phase.trans hu) n rfl

theorem laneTurn_of_active {s : State} (h : s.drv.phase ≠ .idle) (lane pick : Nat) :
    laneTurn lane pick s = laneStep pick (s.turnTo lane) := if_neg h

/-- With a task the lane's step is the same whatever it is to pick. -/
theorem laneStep_eq_coreStep {s : State} (hworks : s.team.waiting = false) (pick : Nat) :
    laneStep pick s = coreStep s := (laneStep_working hworks pick).trans (laneStep_working hworks 0).symm

/-- Settles O60: the turn goes to the lane, which has a task in RUN; the host's word takes its row. -/
theorem stepRunsDecodedInstruction : Obligations.StepRunsDecodedInstruction := by
  constructor
  · intro s t i lane pick hturn hactive u hworks hsub hd _ hexec
    have hactive' : u.drv.phase ≠ .idle := by rw [State.turnTo_phase]; exact hactive
    rw [step_of_nextTurn hturn, laneTurn_of_active (s := s.withInbox s.port.inbox.tail) hactive,
      laneStep_eq_coreStep hworks, coreStep_of_run hactive' hworks hsub]
    exact runStep_of_decode (decodeUop_of_decode hd) hexec
  · intro s i htw addr rest hinbox hd _
    rw [step_of_host hinbox, hostStep, hostTransaction, decodeHost_of_decode hd]

/-! ### STORE steps (R158, R160) and EXPORT (R162) -/

theorem Scratch.find_write (m : Scratch) (k i : Nat) (cv : CVal) :
    (m.write k cv).find i = if i = k then some cv else m.find i := by
  split
  · next h => rw [h, Scratch.find_write_same]
  · next h => exact Scratch.find_write_other _ _ _ _ h

theorem State.scr0_scrWrite (s : State) (b k : Nat) (cv : CVal) :
    (s.scrWrite b k cv).scr0 = if b % 2 = 0 then s.scr0.write k cv else s.scr0 := by
  unfold State.scrWrite
  split <;> rfl

theorem State.scr1_scrWrite (s : State) (b k : Nat) (cv : CVal) :
    (s.scrWrite b k cv).scr1 = if b % 2 = 1 then s.scr1.write k cv else s.scr1 := by
  unfold State.scrWrite
  split
  · next h => rw [if_neg (by omega)]
  · next h => rw [if_pos (by omega)]

/-- After the last node of a level, in the terms of R160. -/
theorem Driver.afterLevel_eq (d : Driver) : d.afterLevel =
    if (d.lvl.toNat : Int) < (d.logn.toNat : Int) - 1 then { d with lvl := d.lvl + 1, node := 0, sub := .load }
    else { d with phase := .root, sub := .load } :=
  if_congr (by omega) rfl rfl

/-- Settles O24: alone, the lane goes where the reference driver goes. -/
theorem leafStoreStep : Obligations.LeafStoreStep := by
  intro s hph hsub hworks hlanes hslot
  refine ⟨_, ?_, Scratch.find_write_same s.scr0 _ _, fun k hk => Scratch.find_write_other s.scr0 _ _ _ hk⟩
  rw [coreStep_leafStore hworks hph hsub, leafStore, if_pos hslot, State.afterLeaf_scrWrite,
    State.afterLeaf_alone (State.parked_of_lanes hlanes)]
  rfl

/-- Settles O26: only the bank of parity LVL is written. -/
theorem parentStoreStep : Obligations.ParentStoreStep := by
  intro s hph hsub hworks hlanes hslot
  set u := s.scrWrite (s.drv.lvl.toNat % 2) s.drv.node.toNat s.lane.cv with hu
  refine ⟨u.scr0, u.scr1, ?_, fun k => ?_, fun k => ?_⟩
  · rw [coreStep_parentStore hworks hph hsub, parentStore, if_pos hslot, State.afterParent_scrWrite,
      State.afterParent_alone (State.parked_of_lanes hlanes), Driver.afterParentStore, Driver.afterLevel_eq,
      Nat.shiftRight_eq_div_pow]
    rfl
  · rw [hu, State.scr0_scrWrite, Nat.mod_mod]
    split <;> simp [*, Scratch.find_write]
  · rw [hu, State.scr1_scrWrite, Nat.mod_mod]
    split <;> simp [*, Scratch.find_write]

/-- Settles O28: EXPORT is written out, and each digest byte is one of a Word of CV. -/
theorem exportStep : Obligations.ExportStep := fun _ hph hsub hworks =>
  ⟨_, coreStep_exportDigest hworks hph hsub, fun k t => getElem_digestFromCv_add _ k.isLt t.isLt⟩

/-! ### What a turn does with the tasks of a level (R151, R152, R163) -/

section
variable {s : State}

theorem laneStep_waiting (hw : s.team.waiting = true) (hactive : s.drv.phase ≠ .idle) (pick : Nat) :
    laneStep pick s = .next (s.takeTask pick) := if_pos ⟨hw, hactive⟩

theorem State.choose_pick {pick : Nat} (hlt : pick < s.levelTasks) (hleft : pick ∉ s.team.taken) :
    s.choose pick = some pick := if_pos ⟨hlt, hleft⟩

theorem leastUntaken_eq {taken : List Nat} {k : Nat} (hleft : k ∉ taken) (hleast : ∀ j < k, j ∈ taken) :
    leastUntaken taken = k := by
  obtain ⟨hfree, hbelow⟩ := leastUntaken_spec taken
  exact le_antisymm (not_lt.mp fun hlt => hleft (hbelow k hlt)) (not_lt.mp fun hlt => hfree (hleast _ hlt))

theorem State.choose_least {pick k : Nat} (hpick : s.levelTasks ≤ pick ∨ pick ∈ s.team.taken) (hlt : k < s.levelTasks)
    (hleft : k ∉ s.team.taken) (hleast : ∀ j < k, j ∈ s.team.taken) : s.choose pick = some k := by
  rw [State.choose, if_neg (by simpa [imp_iff_not_or] using hpick), leastUntaken_eq hleft hleast, if_pos hlt]

theorem State.choose_none_of_taken (pick : Nat) (hall : ∀ k < s.levelTasks, k ∈ s.team.taken) :
    s.choose pick = none := by
  cases hc : s.choose pick with
  | none => rfl
  | some k =>
    obtain ⟨hlt, hleft⟩ := State.choose_some hc
    exact absurd (hall k hlt) hleft

theorem State.takeTask_of_some {pick k : Nat} (h : s.choose pick = some k) : s.takeTask pick = s.take k := by
  rw [State.takeTask, h]

theorem State.takeTask_of_none {pick : Nat} (h : s.choose pick = none) : s.takeTask pick = s.passTurn := by
  rw [State.takeTask, h]

/-- With more lanes a STORE leaves its lane waiting, and the last of the level opens the next. -/
theorem State.afterStore_shared (h : s.team.parked ≠ []) (alone next : Driver) : s.afterStore alone next =
    { s with
      drv := if s.team.stored + 1 < s.levelTasks then { s.drv with sub := .load } else next
      team := if s.team.stored + 1 < s.levelTasks then { s.team with waiting := true, stored := s.team.stored + 1 }
        else s.team.fresh } := by
  rcases s.afterStore_cases alone next with ⟨hq, -⟩ | ⟨-, hmore, heq⟩ | ⟨-, hlast, heq⟩
  · exact absurd hq h
  · rw [heq, if_pos hmore, if_pos hmore]
  · rw [heq, if_neg hlast.not_gt, if_neg hlast.not_gt]

theorem State.afterLeaf_shared (h : s.team.parked ≠ []) (hph : s.drv.phase = .leaf) : s.afterLeaf =
    { s with
      drv := if s.team.stored + 1 < s.drv.nreg.toNat then { s.drv with bj := 0, sub := .load }
        else { s.drv with bj := 0, phase := .parent, lvl := 1, node := 0, sub := .load }
      team := if s.team.stored + 1 < s.drv.nreg.toNat then
          { s.team with waiting := true, stored := s.team.stored + 1 }
        else s.team.fresh } := by
  have htasks : { s with drv := { s.drv with bj := 0 } }.levelTasks = s.drv.nreg.toNat := by
    simp [State.levelTasks, hph]
  rw [State.afterLeaf, State.afterStore_shared (s := { s with drv := { s.drv with bj := 0 } }) h, htasks]
  rfl

theorem State.afterParent_shared (h : s.team.parked ≠ []) (hph : s.drv.phase = .parent) : s.afterParent =
    { s with
      drv := if s.team.stored + 1 < s.drv.nreg.toNat / 2 ^ s.drv.lvl.toNat then { s.drv with sub := .load }
        else s.drv.afterLevel
      team := if s.team.stored + 1 < s.drv.nreg.toNat / 2 ^ s.drv.lvl.toNat then
          { s.team with waiting := true, stored := s.team.stored + 1 }
        else s.team.fresh } := by
  have htasks : s.levelTasks = s.drv.nreg.toNat / 2 ^ s.drv.lvl.toNat := by
    simp [State.levelTasks, State.levelSize, hph, Nat.shiftRight_eq_div_pow]
  rw [State.afterParent, State.afterStore_shared h, htasks]

end

/-- Settles O34: the choice of a task case by case, and a STORE as the slot it writes and the lanes it leaves. -/
theorem lanesTakeAndStoreTasks : Obligations.LanesTakeAndStoreTasks := by
  intro s pick lane hactive
  refine ⟨laneTurn_of_active hactive lane pick, fun hw => laneStep_eq_coreStep hw pick, fun hw hlt hleft => ?_,
    fun hw hpick k hlt hleft hleast => ?_, fun hw hall => ?_, fun hph hsub hw hlanes hslot => ?_,
    fun hph hsub hw hlanes hslot => ?_⟩
  · rw [laneStep_waiting hw hactive, State.takeTask_of_some (State.choose_pick hlt hleft)]
  · rw [laneStep_waiting hw hactive, State.takeTask_of_some (State.choose_least hpick hlt hleft hleast)]
  · rw [laneStep_waiting hw hactive, State.takeTask_of_none (State.choose_none_of_taken pick hall)]
  · rw [coreStep_leafStore hw hph hsub, leafStore, if_pos hslot, State.afterLeaf_scrWrite,
      State.afterLeaf_shared (State.parked_ne_of_lanes hlanes) hph]
    rfl
  · rw [coreStep_parentStore hw hph hsub, parentStore, if_pos hslot, State.afterParent_scrWrite,
      State.afterParent_shared (State.parked_ne_of_lanes hlanes) hph]
    refine ⟨_, rfl, ?_, ?_, rfl, rfl, rfl⟩
    · exact (State.scr0_scrWrite ..).trans (by rw [Nat.mod_mod])
    · exact (State.scr1_scrWrite ..).trans (by rw [Nat.mod_mod])

/-! ### The order of the tasks (R151) -/

/-- A task done leaves its result in its slot, whatever the order and however often it is done. -/
theorem passInOrder_eq (task : Nat → CVal) (order : List Nat) (dst : Nat → CVal) (i : Nat) :
    passInOrder task order dst i = if i ∈ order then task i else dst i := by
  induction order generalizing dst with
  | nil => rfl
  | cons j rest ih =>
    rw [passInOrder, List.foldl_cons, ← passInOrder, ih]
    by_cases hi : i ∈ rest
    · simp [hi]
    · by_cases hij : i = j <;> simp [hi, hij]

/-- Settles O33: what a pass leaves in a slot depends on whether the slot's task is in the order. -/
theorem levelOrderIsFree : Obligations.LevelOrderIsFree := by
  intro input r size order src dst hperm hsrc
  have hmem (i : Nat) : i ∈ order ↔ i < size := hperm.mem_iff.trans List.mem_range
  refine ⟨fun i hi => ?_, fun i hi => ?_, fun i hi => ?_⟩
  · rw [levelInOrder, passInOrder_eq, if_pos ((hmem i).mpr hi), hsrc _ (by omega), hsrc _ (by omega)]
    rfl
  · rw [leavesInOrder, passInOrder_eq, if_pos ((hmem i).mpr hi)]
    rfl
  · have hout : i ∉ order := fun hm => by have := (hmem i).mp hm; omega
    rw [levelInOrder, leavesInOrder, passInOrder_eq, passInOrder_eq, if_neg hout, if_neg hout]
    exact ⟨rfl, rfl⟩

end Sys2Proof.Machine
end

section
/-! SUPPORT. With nothing left on the host port a run comes to its end, with any number of lanes
(70_reset_and_hazards.md R230): in a state of the invariant a turn answers a next state, and brings the end nearer or is
EXPORT. -/

namespace Sys2Proof.Machine

/-! ### How far the end of a run is -/

/-- The levels that come after the one being made, the root's among them (43_chunk_merkle.md R150). -/
def Driver.levelsLeft (d : Driver) : Nat :=
  match d.phase with
  | .leaf => d.logn.toNat
  | .parent => d.logn.toNat - d.lvl.toNat
  | .root | .idle => 0

/-- What the lanes have left to do with the tasks of the level: one lane goes through them in order; more lanes take
each and store each. -/
def State.tasksLeft (s : State) : Nat :=
  if s.team.parked = [] then s.levelTasks - s.seat.task s.drv.phase
  else s.levelTasks - s.team.taken.length + (s.levelTasks - s.team.stored)

/-- How many lanes on the next lane with a task is. -/
def State.turnsToWork (s : State) : Nat := s.seats.findIdx fun p => !p.waiting

/-- The steps up to the STORE of a lane's task: those left of the compression, and those of the chunk's blocks after BJ.
In a parent level and at the root BJ stays, and what it adds with it. -/
def stepsToStore (sub : Sub) (upc : BitVec 6) (bj : BitVec 4) : Nat :=
  compressionLeft sub upc + compressionSteps * (15 - bj.toNat)

/-- How far the run is from its end, in levels and tasks. -/
def State.levelDistance (s : State) : Nat ×ₗ Nat := toLex (s.drv.levelsLeft, s.tasksLeft)

/-- How far the run is from its end: in levels and tasks, and then in turns and steps. -/
def State.distance (s : State) : (Nat ×ₗ Nat) ×ₗ (Nat ×ₗ Nat) :=
  toLex (s.levelDistance, toLex (s.turnsToWork, stepsToStore s.drv.sub s.lane.upc s.drv.bj))

/-- The run of `t` has not ended, and is nearer its end than that of `s`. -/
def State.Nearer (t s : State) : Prop := t.drv.phase ≠ .idle ∧ t.distance < s.distance

/-- What EXPORT leaves (R162). -/
structure State.Exported (t : State) : Prop where
  idle : t.drv.phase = .idle
  status : t.status = statusDone
  dout : t.dout = digestFromCv t.lane.cv

section
variable {s t : State}

theorem State.levelDistance_lt_of_level (h : t.drv.levelsLeft < s.drv.levelsLeft) : t.levelDistance < s.levelDistance :=
  Prod.Lex.toLex_lt_toLex.mpr (.inl h)

theorem State.levelDistance_lt_of_task (hlevel : t.drv.levelsLeft = s.drv.levelsLeft) (h : t.tasksLeft < s.tasksLeft) :
    t.levelDistance < s.levelDistance :=
  Prod.Lex.toLex_lt_toLex.mpr (.inr ⟨hlevel, h⟩)

theorem State.distance_lt_of_levelDistance (h : t.levelDistance < s.levelDistance) : t.distance < s.distance :=
  Prod.Lex.toLex_lt_toLex.mpr (.inl h)

theorem State.distance_lt_of_turn (hlevel : t.levelDistance = s.levelDistance) (h : t.turnsToWork < s.turnsToWork) :
    t.distance < s.distance :=
  Prod.Lex.toLex_lt_toLex.mpr (.inr ⟨hlevel, Prod.Lex.toLex_lt_toLex.mpr (.inl h)⟩)

theorem State.distance_lt_of_step (hlevel : t.levelDistance = s.levelDistance) (hturn : t.turnsToWork = s.turnsToWork)
    (h : stepsToStore t.drv.sub t.lane.upc t.drv.bj < stepsToStore s.drv.sub s.lane.upc s.drv.bj) :
    t.distance < s.distance :=
  Prod.Lex.toLex_lt_toLex.mpr (.inr ⟨hlevel, Prod.Lex.toLex_lt_toLex.mpr (.inr ⟨hturn, h⟩)⟩)

/-- A lane with a task has its turn at once. -/
theorem State.turnsToWork_of_task (hw : s.team.waiting = false) : s.turnsToWork = 0 := by
  simp [State.turnsToWork, State.seats, State.seat, List.findIdx_cons, hw]

theorem State.tasksLeft_alone (hq : s.team.parked = []) :
    s.tasksLeft = s.levelTasks - s.seat.task s.drv.phase := if_pos hq

theorem State.tasksLeft_shared (hq : s.team.parked ≠ []) :
    s.tasksLeft = s.levelTasks - s.team.taken.length + (s.levelTasks - s.team.stored) := if_neg hq

/-! ### A lane without a task -/

/-- Where a task of the level is left, fewer have been taken than the level has. -/
theorem State.SharedInv.taken_length_lt (h : s.SharedInv) {k : Nat} (hk : k < s.levelTasks) (hnew : k ∉ s.team.taken) :
    s.team.taken.length < s.levelTasks := by
  have hin : ∀ j ∈ k :: s.team.taken, j < s.levelTasks := List.forall_mem_cons.mpr ⟨hk, h.inLevel⟩
  simpa using ((List.nodup_cons.mpr ⟨hnew, h.once⟩).subperm fun j hj => List.mem_range.mpr (hin j hj)).length_le

/-- While the level is not complete and every task has been taken, a lane works on one. -/
theorem State.SharedInv.working_ne_nil (h : s.SharedInv) (hall : ∀ k < s.levelTasks, k ∈ s.team.taken) :
    s.working ≠ [] := fun hnone => by
  have hlength := (List.nodup_range.subperm fun k hk => hall k (List.mem_range.mp hk)).length_le
  have hcounted := h.counted
  have hopen := h.incomplete
  rw [hnone, List.length_nil] at hcounted
  rw [List.length_range] at hlength
  omega

/-- Taking a task leaves one less to take. -/
theorem State.Inv.take_nearer (h : s.Inv) (hp : s.drv.phase ≠ .idle) (hw : s.team.waiting = true) {k : Nat}
    (hk : k < s.levelTasks) (hnew : k ∉ s.team.taken) : (s.take k).Nearer s := by
  have hq := h.parked_of_waiting hp hw
  have hlt := (h.team.shared hp hq).taken_length_lt hk hnew
  rw [State.take_eq_withLanes]
  refine ⟨hp, State.distance_lt_of_levelDistance (State.levelDistance_lt_of_task rfl ?_)⟩
  rw [State.tasksLeft_shared hq]
  refine (State.tasksLeft_shared (s := s.withLanes _ _ _ _) hq).trans_lt ?_
  change s.levelTasks - (k :: s.team.taken).length + (s.levelTasks - s.team.stored) < _
  rw [List.length_cons]
  omega

theorem State.levelDistance_passTurn (s : State) (hq : s.team.parked ≠ []) :
    s.passTurn.levelDistance = s.levelDistance := by
  have hpass : s.passTurn.team.parked ≠ [] := by
    obtain ⟨p, rest, hcons⟩ := List.exists_cons_of_ne_nil hq
    simp [State.passTurn, hcons]
  have hlevels : s.passTurn.drv.levelsLeft = s.drv.levelsLeft := by simp [Driver.levelsLeft]
  have htasks : s.passTurn.levelTasks = s.levelTasks := by simp [State.levelTasks, State.levelSize]
  rw [State.levelDistance, State.levelDistance, State.tasksLeft_shared hq, State.tasksLeft_shared hpass, hlevels,
    htasks, State.passTurn_taken, State.passTurn_stored]

/-- The turn passes towards the lanes that have a task. -/
theorem State.turnsToWork_passTurn_lt (hw : s.team.waiting = true) (hwork : s.working ≠ []) :
    s.passTurn.turnsToWork < s.turnsToWork := by
  have hsome : s.team.parked.findIdx (fun p => !p.waiting) < s.team.parked.length := by
    rw [State.working_of_waiting hw, State.othersWorking, ne_eq, List.map_eq_nil_iff] at hwork
    obtain ⟨p, hp⟩ := List.exists_mem_of_ne_nil _ hwork
    exact List.findIdx_lt_length.mpr ⟨p, List.mem_filter.mp hp⟩
  rw [State.turnsToWork, State.turnsToWork, State.passTurn_seats, List.findIdx_append, if_pos hsome, State.seats,
    List.findIdx_cons]
  simp [State.seat, hw]

/-- Where no task is left the turn passes on to a lane that has one. -/
theorem State.Inv.passTurn_nearer (h : s.Inv) (hp : s.drv.phase ≠ .idle) (hw : s.team.waiting = true)
    (hall : ∀ k < s.levelTasks, k ∈ s.team.taken) : s.passTurn.Nearer s := by
  have hq := h.parked_of_waiting hp hw
  have hwork := (h.team.shared hp hq).working_ne_nil hall
  refine ⟨?_, State.distance_lt_of_turn (s.levelDistance_passTurn hq) (State.turnsToWork_passTurn_lt hw hwork)⟩
  rwa [s.passTurn_phase]

theorem State.Inv.takeTask_nearer (h : s.Inv) (hp : s.drv.phase ≠ .idle) (hw : s.team.waiting = true) (pick : Nat) :
    (s.takeTask pick).Nearer s := by
  rcases takeTask_cases pick s with ⟨k, hk, heq⟩ | ⟨hnone, heq⟩ <;> rw [heq]
  · obtain ⟨hlt, hnew⟩ := State.choose_some hk
    exact h.take_nearer hp hw hlt hnew
  · exact h.passTurn_nearer hp hw (State.choose_none hnone)

/-! ### LOAD and RUN steps -/

theorem stepsToStore_load (upc : BitVec 6) (bj : BitVec 4) : stepsToStore .run 0 bj < stepsToStore .load upc bj :=
  Nat.add_lt_add_right (by decide : compressionLeft .run 0 < compressionSteps) _

theorem stepsToStore_nextUop {l : Lane} (h : l.upc ≠ 63) (bj : BitVec 4) :
    stepsToStore .run (l.upc + 1) bj < stepsToStore .run l.upc bj := by
  have hlt := (l.upc + 1).isLt
  rw [Lane.upc_add_one h] at hlt
  simp only [stepsToStore, compressionLeft, Lane.upc_add_one h]
  omega

theorem stepsToStore_nextBlock {bj : BitVec 4} (h : bj.toNat < 15) (upc : BitVec 6) :
    stepsToStore .load upc (bj + 1) < stepsToStore .run 63 bj := by
  have hsucc : (bj + 1).toNat = bj.toNat + 1 := BitVec.toNat_add_of_lt (by change bj.toNat + 1 < 2 ^ 4; omega)
  rw [stepsToStore, stepsToStore, hsucc]
  change compressionSteps + compressionSteps * _ < 1 + compressionSteps * _
  rw [compressionSteps]
  omega

theorem stepsToStore_store (upc : BitVec 6) (bj : BitVec 4) : stepsToStore .store upc bj < stepsToStore .run 63 bj :=
  Nat.add_lt_add_right (by decide : 0 < compressionLeft .run 63) _

/-- A lane that stays with its task comes nearer its STORE. -/
theorem State.stay_nearer (hp : s.drv.phase ≠ .idle) (hw : s.team.waiting = false) (lane : Lane) (sub : Sub)
    (bj : BitVec 4) (h : stepsToStore sub lane.upc bj < stepsToStore s.drv.sub s.lane.upc s.drv.bj) :
    { s with lane := lane, drv := { s.drv with sub := sub, bj := bj } }.Nearer s := by
  refine ⟨hp, State.distance_lt_of_step rfl ?_ h⟩
  rw [State.turnsToWork_of_task hw]
  exact State.turnsToWork_of_task hw

theorem State.loadOperands_nearer (hp : s.drv.phase ≠ .idle) (hw : s.team.waiting = false) (hsub : s.drv.sub = .load)
    (cv : CVal) (m : Block) (cnt : BitVec 64) (flg : Word) : (s.loadOperands cv m cnt flg).Nearer s :=
  State.stay_nearer hp hw _ .run s.drv.bj (by rw [hsub]; exact stepsToStore_load s.lane.upc s.drv.bj)

/-- A RUN step leaves one uop less of the block, or one block less of the chunk, or goes to STORE (R157). -/
theorem State.uop_nearer (hp : s.drv.phase ≠ .idle) (hw : s.team.waiting = false) (hsub : s.drv.sub = .run)
    (i : Instr) : { s with lane := s.lane.uop i }.afterUop.Nearer s := by
  unfold State.afterUop
  rw [Lane.upc_uop]
  split
  · next hupc =>
    unfold Driver.afterCompression
    split
    · next hmore =>
      exact State.stay_nearer hp hw _ .load (s.drv.bj + 1) (by rw [hsub, hupc]; exact stepsToStore_nextBlock hmore.2 _)
    · exact State.stay_nearer hp hw _ .store s.drv.bj (by rw [hsub, hupc]; exact stepsToStore_store _ _)
  · next hupc =>
    exact State.stay_nearer hp hw _ s.drv.sub s.drv.bj (by rw [hsub]; exact stepsToStore_nextUop hupc _)

/-! ### STORE steps -/

theorem Driver.atTask_phase (d : Driver) (k : Nat) : (d.atTask k).phase = d.phase := by
  rw [d.atTask_eq]

theorem Driver.atTask_levelsLeft (d : Driver) (k : Nat) : (d.atTask k).levelsLeft = d.levelsLeft := by
  rw [d.atTask_eq]
  rfl

theorem State.levelTasks_atTask (s : State) (k : Nat) : { s with drv := s.drv.atTask k }.levelTasks = s.levelTasks := by
  rw [s.drv.atTask_eq]
  rfl

/-- With one lane the next task of the level leaves one task less. -/
theorem State.tasksLeft_atTask (hp : s.drv.phase ≠ .idle) (hq : s.team.parked = []) {k : Nat} (hk : k < s.levelTasks) :
    { s with drv := s.drv.atTask k }.tasksLeft = s.levelTasks - k := by
  rw [State.tasksLeft, if_pos hq, State.levelTasks_atTask]
  change _ - Seat.task (s.drv.atTask k).phase (s.seatAtTask k) = _
  rw [s.drv.atTask_phase, State.task_seatAtTask hp hk]

/-- A STORE of task `k` of the `m` of the level leaves one task less, or ends the level. -/
theorem State.levelDistance_afterStore_lt (hp : s.drv.phase ≠ .idle) {k m : Nat} (htask : s.seat.task s.drv.phase = k)
    (htasks : s.levelTasks = m) {alone next : Driver}
    (halone : alone = if k + 1 < m then s.drv.atTask (k + 1) else next) (hnext : next.phase ≠ .idle)
    (hless : next.levelsLeft < s.drv.levelsLeft) :
    (s.afterStore alone next).drv.phase ≠ .idle ∧ (s.afterStore alone next).levelDistance < s.levelDistance := by
  subst htask htasks
  rcases s.afterStore_cases alone next with ⟨hq, heq⟩ | ⟨hq, hmore, heq⟩ | ⟨-, -, heq⟩ <;> rw [heq]
  · split at halone <;> subst halone
    · next hmore =>
      refine ⟨(s.drv.atTask_phase _).trans_ne hp, State.levelDistance_lt_of_task (s.drv.atTask_levelsLeft _) ?_⟩
      rw [State.tasksLeft_atTask hp hq hmore, State.tasksLeft_alone hq]
      omega
    · exact ⟨hnext, State.levelDistance_lt_of_level hless⟩
  · refine ⟨hp, State.levelDistance_lt_of_task rfl ?_⟩
    rw [State.tasksLeft_shared hq, State.tasksLeft, if_neg hq]
    change s.levelTasks - s.team.taken.length + (s.levelTasks - (s.team.stored + 1)) < _
    omega
  · exact ⟨hnext, State.levelDistance_lt_of_level hless⟩

theorem State.Inv.leafStore_nearer (h : s.Inv) (hph : s.drv.phase = .leaf) :
    (s.scrWrite 0 s.drv.ci.toNat s.lane.cv).afterLeaf.Nearer s := by
  have hp : s.drv.phase ≠ .idle := by simp [hph]
  obtain ⟨hlogn, -, -⟩ := h.driver.latched hp
  have hless : s.drv.afterLeaves.levelsLeft < s.drv.levelsLeft := by
    simp only [Driver.levelsLeft, Driver.afterLeaves, hph]
    change s.drv.logn.toNat - 1 < _
    omega
  set u : State := { s with drv := { s.drv with bj := 0 } }
  have htasks : u.levelTasks = s.drv.nreg.toNat := by rw [State.levelTasks, show u.drv.phase = .leaf from hph]
  obtain ⟨hactive, hless'⟩ := State.levelDistance_afterStore_lt (s := u) hp (State.task_leaf hph) htasks
    (Driver.afterLeafStore_eq hph rfl) (next := u.drv.afterLeaves) nofun hless
  rw [State.afterLeaf_scrWrite]
  exact ⟨hactive, State.distance_lt_of_levelDistance hless'⟩

theorem Driver.afterLevel_active {d : Driver} (hph : d.phase = .parent) : d.afterLevel.phase ≠ .idle := by
  unfold Driver.afterLevel
  split
  · exact hph.trans_ne nofun
  · exact nofun

/-- After the last node of a level one level less is left. -/
theorem Driver.afterLevel_levelsLeft_lt {d : Driver} (hph : d.phase = .parent) (hlt : d.lvl.toNat < d.logn.toNat) :
    d.afterLevel.levelsLeft < d.levelsLeft := by
  unfold Driver.afterLevel
  split
  · have hlogn := d.logn.isLt
    have hsucc : (d.lvl + 1).toNat = d.lvl.toNat + 1 :=
      BitVec.toNat_add_of_lt (by change d.lvl.toNat + 1 < 2 ^ 6; omega)
    simp only [Driver.levelsLeft, hph, hsucc]
    omega
  · simp only [Driver.levelsLeft, hph]
    omega

theorem State.Inv.parentStore_nearer (h : s.Inv) (hph : s.drv.phase = .parent) :
    (s.scrWrite (s.drv.lvl.toNat % 2) s.drv.node.toNat s.lane.cv).afterParent.Nearer s := by
  obtain ⟨-, hlt, -⟩ := h.driver.parent hph
  have htasks : s.levelTasks = s.drv.nreg.toNat >>> s.drv.lvl.toNat := by rw [State.levelTasks, hph]; rfl
  obtain ⟨hactive, hless'⟩ := State.levelDistance_afterStore_lt (by simp [hph]) (State.task_parent hph) htasks
    (Driver.afterParentStore_eq hph) (Driver.afterLevel_active hph) (Driver.afterLevel_levelsLeft_lt hph hlt)
  rw [State.afterParent_scrWrite]
  exact ⟨hactive, State.distance_lt_of_levelDistance hless'⟩

/-! ### A turn of a lane -/

/-- The slot of a lane's task in a leaf level exists (43_chunk_merkle.md R154). -/
theorem State.Inv.ci_lt_nMax (h : s.Inv) (hph : s.drv.phase = .leaf) (hw : s.team.waiting = false) :
    s.drv.ci.toNat < s.nMax := by
  have hp : s.drv.phase ≠ .idle := by simp [hph]
  have htask := h.task_lt hp hw
  rw [State.task_leaf hph] at htask
  exact htask.trans_le (State.levelTasks_le h.driver hp).1

/-- The slots of a node's children exist, and so does its own (R154). -/
theorem State.Inv.children_lt_nMax (h : s.Inv) (hph : s.drv.phase = .parent) (hw : s.team.waiting = false) :
    2 * s.drv.node.toNat + 1 < s.nMax := by
  have hp : s.drv.phase ≠ .idle := by simp [hph]
  obtain ⟨-, hcap, hnreg⟩ := h.driver.latched hp
  obtain ⟨hpos, hlt, -⟩ := h.driver.parent hph
  have htask := h.task_lt hp hw
  rw [State.task_parent hph, State.levelTasks, hph] at htask
  have hsize : 2 * s.levelSize ≤ s.nMax := by
    rw [s.levelSize_eq _ hnreg hlt.le, ← pow_succ']
    exact Nat.pow_le_pow_right (by norm_num) (by omega)
  change s.drv.node.toNat < s.levelSize at htask
  omega

theorem State.Inv.one_lt_nMax (h : s.Inv) : 1 < s.nMax := by
  have hcap : 10 ≤ s.log2NMax.toNat := h.storage.capacity.1
  exact Nat.one_lt_two_pow (by omega)

theorem exportDigest_exported (s : State) : ∃ t, exportDigest s = .next t ∧ t.Exported := ⟨_, rfl, rfl, rfl, rfl⟩

/-- In a state of the invariant the step of a lane with a task brings the end nearer, or is EXPORT. -/
theorem State.Inv.fsmStep_nearer (h : s.Inv) (hp : s.drv.phase ≠ .idle) (hw : s.team.waiting = false) :
    ∃ t, fsmStep s = .next t ∧ (t.Nearer s ∨ t.Exported) := by
  have hrun (hsub : s.drv.sub = .run) : ∃ t, runStep s = .next t ∧ (t.Nearer s ∨ t.Exported) :=
    ⟨_, runStep_of_rom h.storage.romFixed, .inl (State.uop_nearer hp hw hsub _)⟩
  unfold fsmStep
  cases hph : s.drv.phase with
  | idle => exact absurd hph hp
  | leaf =>
    have hslot := h.ci_lt_nMax hph hw
    cases hsub : s.drv.sub with
    | load => exact ⟨_, leafLoad_of_slot hslot, .inl (State.loadOperands_nearer hp hw hsub _ _ _ _)⟩
    | run => exact hrun hsub
    | store => exact ⟨_, if_pos hslot, .inl (h.leafStore_nearer hph)⟩
  | parent =>
    have hslots := h.children_lt_nMax hph hw
    cases hsub : s.drv.sub with
    | load => exact ⟨_, if_pos hslots, .inl (State.loadOperands_nearer hp hw hsub _ _ _ _)⟩
    | run => exact hrun hsub
    | store => exact ⟨_, if_pos (by omega), .inl (h.parentStore_nearer hph)⟩
  | root =>
    cases hsub : s.drv.sub with
    | load => exact ⟨_, if_pos h.one_lt_nMax, .inl (State.loadOperands_nearer hp hw hsub _ _ _ _)⟩
    | run => exact hrun hsub
    | store => exact (exportDigest_exported s).imp fun _ => .imp_right .inr

theorem State.Inv.laneStep_nearer (h : s.Inv) (hp : s.drv.phase ≠ .idle) (pick : Nat) :
    ∃ t, laneStep pick s = .next t ∧ (t.Nearer s ∨ t.Exported) := by
  rcases laneStep_cases pick s with ⟨hw, -, heq⟩ | ⟨hw, heq⟩ <;> rw [heq]
  · exact ⟨_, rfl, .inl (h.takeTask_nearer hp hw pick)⟩
  · exact h.fsmStep_nearer hp (hw.resolve_right hp)

end

/-! ### A run -/

/-- With nothing left on the host port a run in progress ends by EXPORT. -/
theorem State.Inv.run_exported {s : State} (h : s.Inv) (hp : s.drv.phase ≠ .idle) (hinbox : s.port.inbox = []) :
    ∃ k t, run k s = .next t ∧ t.Exported := by
  obtain ⟨u, hu, hnext⟩ := h.laneStep_nearer hp 0
  have hstep : step s = .next u := (step_of_no_event hinbox).trans hu
  rcases hnext with ⟨hactive, hnearer⟩ | hend
  · have hinv := invKeptByEveryStep s u h hstep
    have hinbox' : u.port.inbox = [] := by rw [step_inbox hstep, hinbox, List.tail_nil]
    obtain ⟨k, t, ht, hend⟩ := hinv.run_exported hactive hinbox'
    exact ⟨k + 1, t, (run_succ hstep k).trans ht, hend⟩
  · exact ⟨1, u, (run_one s).trans hstep, hend⟩
termination_by s.distance
decreasing_by exact hnearer

/-- Settles O37: every turn brings the end nearer, in levels, then in tasks to take and store, then in turns up to a
lane with a task, then in steps up to its STORE. -/
theorem everyRunEnds : Obligations.EveryRunEnds := by
  intro s h hinbox
  by_cases hp : s.drv.phase = .idle
  · exact ⟨0, s, rfl, hp, absurd hp⟩
  · obtain ⟨k, t, ht, hend⟩ := h.run_exported hp hinbox
    exact ⟨k, t, ht, hend.idle, fun _ => ⟨hend.status, hend.dout⟩⟩

end Sys2Proof.Machine
end

section
/-! SUPPORT. The host interface (44_host_interface.md): malformed requests, the length check, HASH, LEN, IN and DOUT,
and what a request leaves of a run in progress and of the mark `refused`. -/

namespace Sys2Proof.Machine

/-! ### Malformed accesses and reserved keys (R184) -/

/-- A CSR access that is malformed for a reason is refused, and the reason is recorded. -/
theorem hostStep_csrAccess_refused {write : Bool} {offset width : Nat} {reason : RefuseReason}
    (h : reason ∈ csrAccessReasons offset width) (data : Word) (s : State) :
    ∃ why, reason ∈ why ∧ hostStep (.csrAccess write offset width data) s = .next (s.refuse why) := by
  refine ⟨_, h, ?_⟩
  rw [hostStep, csrAccess]
  split
  · next hnone => simp [hnone] at h
  · rfl

/-- A reserved key is refused, and the reason is recorded. -/
theorem hostStep_transaction_refused {htw : BitVec 40} {reason : RefuseReason}
    (h : reason ∈ hostKeyReasons (htw.extractLsb' 37 2) (htw.extractLsb' 36 1) (htw.extractLsb' 32 4)) (addr : Nat)
    (s : State) : ∃ why, reason ∈ why ∧ hostStep (.transaction htw addr) s = .next (s.refuse why) := by
  refine ⟨_, h, ?_⟩
  rw [hostStep, hostTransaction, decodeHost]
  cases hkey : hostKeyReasons (htw.extractLsb' 37 2) (htw.extractLsb' 36 1) (htw.extractLsb' 32 4) with
  | nil => simp [hkey] at h
  | cons => rfl

/-- Outside the CSR space a key with a nonzero INDEX is reserved. -/
theorem hostKeyReserved_mem {space : BitVec 2} {index : BitVec 4} (hspace : space = 1 ∨ space = 2) (hindex : index ≠ 0)
    (krsvd : BitVec 1) : .hostKeyReserved ∈ hostKeyReasons space krsvd index := by
  have hne : space ≠ 0 := by rcases hspace with rfl | rfl <;> decide
  refine List.mem_append_right _ ?_
  rw [if_pos (.inr ⟨hne, hindex⟩)]
  exact List.mem_singleton_self _

/-- Settles O5: each clause names a reason among those of the access or of the key. -/
theorem malformedAccessesRefused : Obligations.MalformedAccessesRefused := fun s =>
  ⟨fun _ _ _ data =>
    ⟨fun h => hostStep_csrAccess_refused (by simp [csrAccessReasons, h]) data s,
      fun h => hostStep_csrAccess_refused (by simp [csrAccessReasons, h]) data s,
      fun h => hostStep_csrAccess_refused (by simp [csrAccessReasons, h]) data s⟩,
    fun _ addr =>
    ⟨fun h => hostStep_transaction_refused (by simp [hostKeyReasons, h]) addr s,
      fun h => hostStep_transaction_refused (by simp [hostKeyReasons, h]) addr s,
      fun hspace hindex => hostStep_transaction_refused (hostKeyReserved_mem hspace hindex _) addr s⟩,
    fun why => ⟨s.refuse_sameArch why, rfl⟩⟩

/-! ### The length of a command (R189) -/

/-- The three conditions of the rule. -/
theorem validLength_iff {len : BitVec 64} : validLength len = true ↔
    len.toNat % 1024 = 0 ∧ (∃ k, len.toNat / 1024 = 2 ^ k) ∧ 1024 ≤ len.toNat / 1024 := by
  have hpow : chunkCount len = 2 ^ Nat.log2 (chunkCount len) ↔ ∃ k, len.toNat / 1024 = 2 ^ k := by
    constructor
    · exact fun h => ⟨_, h⟩
    · rintro ⟨k, hk⟩
      rw [chunkCount, chunkLen, hk, Nat.log2_two_pow]
  simp only [validLength, Bool.and_eq_true, decide_eq_true_eq, and_assoc]
  rw [hpow]
  rfl

/-- A valid length is a power of two from `2^20` to `2^63`. -/
theorem validLength_iff_two_pow {len : BitVec 64} :
    validLength len = true ↔ ∃ k, 20 ≤ k ∧ k ≤ 63 ∧ len.toNat = 2 ^ k := by
  rw [validLength_iff]
  constructor
  · rintro ⟨hmod, ⟨j, hj⟩, hmin⟩
    have hlen : len.toNat = 2 ^ (10 + j) := by rw [pow_add, ← hj]; omega
    have hleast : 10 ≤ j := (Nat.pow_le_pow_iff_right (by norm_num : 1 < 2)).mp (hj ▸ hmin)
    have hgreatest : 10 + j < 64 := (Nat.pow_lt_pow_iff_right (by norm_num : 1 < 2)).mp (hlen ▸ len.isLt)
    exact ⟨10 + j, by omega, by omega, hlen⟩
  · rintro ⟨k, hleast, -, hlen⟩
    have hcount : len.toNat / 1024 = 2 ^ (k - 10) := hlen ▸ Nat.pow_div (n := 10) (by omega) (by norm_num)
    refine ⟨?_, ⟨_, hcount⟩, ?_⟩
    · exact Nat.mod_eq_zero_of_dvd (hlen ▸ pow_dvd_pow 2 (by omega : 10 ≤ k))
    · exact hcount ▸ Nat.pow_le_pow_right (n := 2) (by norm_num) (by omega : 10 ≤ k - 10)

/-- Settles O39: the check is the rule's conditions, which leave the powers of two; the examples run. -/
theorem validLengthIsPowerOfTwo : Obligations.ValidLengthIsPowerOfTwo :=
  ⟨fun _ => validLength_iff, fun _ => validLength_iff_two_pow, by decide⟩

/-! ### HASH (R171) -/

section
variable {s : State} (data : BitVec 32)

theorem exec_hash (s : State) : exec (.hash data) s = .next (s.hashCommand.respond .ack) := rfl

theorem exec_hash_busy (hb : s.busy = true) : exec (.hash data) s = .next (s.respond .ack) := by
  rw [exec_hash, State.hashCommand, if_pos hb]

theorem exec_hash_invalid (hb : s.busy = false) (hv : validLength s.len = false) :
    exec (.hash data) s = .next ((s.raiseError errInvalidInput).respond .ack) := by
  rw [exec_hash, State.hashCommand, if_neg (by simp [hb]), if_pos (by simp [hv])]

theorem exec_hash_beyond (hb : s.busy = false) (hv : validLength s.len = true) (hbig : s.nMax < chunkCount s.len) :
    exec (.hash data) s = .next ((s.raiseError errOutOfMemory).respond .ack) := by
  rw [exec_hash, State.hashCommand, if_neg (by simp [hb]), if_neg (by simp [hv]), if_pos hbig]

theorem exec_hash_accepted (hb : s.busy = false) (hv : validLength s.len = true) (hfits : chunkCount s.len ≤ s.nMax) :
    exec (.hash data) s = .next ((s.startRun (chunkCount s.len)).respond .ack) := by
  rw [exec_hash, State.hashCommand, if_neg (by simp [hb]), if_neg (by simp [hv]), if_neg hfits.not_gt]

end

/-- The chunk count of a valid length and its logarithm fit the registers that latch them. -/
theorem latched_of_validLength {len : BitVec 64} (h : validLength len = true) :
    (BitVec.ofNat 64 (chunkCount len)).toNat = chunkCount len ∧
      chunkCount len = 2 ^ (BitVec.ofNat 6 (Nat.log2 (chunkCount len))).toNat := by
  obtain ⟨hpow, -⟩ := chunkCount_of_validLength h
  have hcount : chunkCount len < 2 ^ 64 := (Nat.div_le_self _ _).trans_lt len.isLt
  have hlog : Nat.log2 (chunkCount len) < 64 :=
    (Nat.pow_lt_pow_iff_right (by norm_num : 1 < 2)).mp (hpow ▸ hcount)
  rw [BitVec.toNat_ofNat, BitVec.toNat_ofNat, Nat.mod_eq_of_lt hcount, Nat.mod_eq_of_lt hlog]
  exact ⟨rfl, hpow⟩

/-- Settles O40: each clause is one outcome of the command, and an accepted length fits the registers. -/
theorem hashCommand : Obligations.HashCommand := fun _ data =>
  ⟨exec_hash_busy data, exec_hash_invalid data, exec_hash_beyond data, fun hb hv hfits =>
    have ⟨hnreg, hlogn⟩ := latched_of_validLength hv
    ⟨_, _, hnreg, hnreg.trans hlogn, exec_hash_accepted data hb hv hfits⟩⟩

/-! ### LEN (R176, R177) -/

/-- A turn of a lane neither reads nor changes LEN. -/
theorem laneStep_mapLen {s t : State} {pick : Nat} (h : laneStep pick s = .next t) (lo hi : Word → Word) :
    laneStep pick { s with lenLo := lo s.lenLo, lenHi := hi s.lenHi } =
      .next { t with lenLo := lo t.lenLo, lenHi := hi t.lenHi } := by
  have hmap := laneStep_mapUnread (g := { lenLo := lo, lenHi := hi }) (s := s)
    (fun _ => ⟨fun _ => ⟨rfl, rfl⟩, fun _ => ⟨rfl, rfl⟩⟩) pick
  rw [h] at hmap
  exact hmap

/-- Settles O43: each row is written out, and a lane's turn is the same whatever LEN holds. -/
theorem lenWrites : Obligations.LenWrites := fun _ data =>
  ⟨rfl, rfl, fun _ _ h => ⟨laneStep_mapLen h (fun _ => data) id, laneStep_mapLen h id fun _ => data⟩⟩

/-! ### CSR reads and the writes that are ignored (R172 to R183) -/

/-- Settles O41: each row is written out, and the invariant has STATUS among the legal values. -/
theorem csrReadsReturnTheirRegister : Obligations.CsrReadsReturnTheirRegister := by
  intro s data index returns
  refine ⟨rfl, rfl, rfl, rfl, rfl, rfl, rfl, rfl, fun h => ?_⟩
  simpa [legalStatus] using h.status.legal

/-- Settles O42: each row is written out. -/
theorem ignoredCsrWrites : Obligations.IgnoredCsrWrites := fun _ _ _ => ⟨rfl, rfl, rfl, rfl, rfl, rfl⟩

/-! ### IN and DOUT (R185 to R188) -/

section
variable {s : State} (data : BitVec 32) {a : Nat}

theorem exec_wrIn_outOfRange (h : s.inBytes ≤ a) : exec (.wrIn data a) s = .next (s.refuse [.inAddressOutOfRange]) :=
  if_pos (by simpa [State.inRange] using h)

theorem exec_wrIn_busy (h : a < s.inBytes) (hb : s.busy = true) :
    exec (.wrIn data a) s = .next (s.refuse [.inBusy]) :=
  (if_neg (by simpa [State.inRange] using h)).trans (if_pos hb)

theorem exec_wrIn_write (h : a < s.inBytes) (hb : s.busy = false) :
    exec (.wrIn data a) s = .next ((s.inWrite a (dataByte data)).respond .ack) :=
  (if_neg (by simpa [State.inRange] using h)).trans (if_neg (by simp [hb]))

theorem exec_rdIn_outOfRange (h : s.inBytes ≤ a) : exec (.rdIn data a) s = .next (s.refuse [.inAddressOutOfRange]) :=
  if_pos (by simpa [State.inRange] using h)

theorem exec_rdIn_read (h : a < s.inBytes) : exec (.rdIn data a) s = .next (s.respond (.byte (s.inRead a))) :=
  if_neg (by simpa [State.inRange] using h)

theorem exec_rdDout_outOfRange (h : 32 ≤ a) : exec (.rdDout data a) s = .next (s.refuse [.doutAddressOutOfRange]) :=
  dif_neg h.not_gt

theorem exec_rdDout_read (h : a < 32) : exec (.rdDout data a) s = .next (s.respond (.byte s.dout[a])) := dif_pos h

theorem exec_wrDout_outOfRange (h : 32 ≤ a) : exec (.wrDout data a) s = .next (s.refuse [.doutAddressOutOfRange]) :=
  if_neg h.not_gt

theorem exec_wrDout_ignored (h : a < 32) : exec (.wrDout data a) s = .next (s.respond .ack) := if_pos h

end

/-- Settles O44: the three outcomes in the order of R185; a write of the byte memory is read back at its address
alone. -/
theorem wrInWritesOneByte : Obligations.WrInWritesOneByte := fun s data a =>
  ⟨exec_wrIn_outOfRange data, exec_wrIn_busy data, fun hlt hb hwf =>
    ⟨s.inMem.write a (dataByte data), exec_wrIn_write data hlt hb, Memory.write_wf _ _ _ hwf,
      Memory.read_write_same _ _ _ hwf, fun b => Memory.read_write_other _ a b _⟩⟩

/-- Settles O45: each row has the outcome its bound gives. -/
theorem inReadsAndDoutTransactions : Obligations.InReadsAndDoutTransactions := fun _ data =>
  ⟨fun _ => exec_rdIn_outOfRange data, fun _ => exec_rdIn_read data,
    fun k => ⟨exec_rdDout_read data k.isLt, exec_wrDout_ignored data k.isLt⟩,
    fun _ hk => ⟨exec_rdDout_outOfRange data hk, exec_wrDout_outOfRange data hk⟩⟩

/-! ### What a request leaves of a run, and of the mark `refused` (R170, R208) -/

/-- Settles O46: only HASH and WR_IN change more than LEN and the port, and neither does while BUSY. -/
theorem hostCannotDisturbARun : Obligations.HostCannotDisturbARun := by
  intro s r
  obtain ⟨t, ht, -⟩ := hostStep_next r s
  exact ⟨t, ht, (hostStep_move ht).eq_of_busy⟩

/-- A host transaction records a reason only as a refusal, which changes nothing but the port. -/
theorem exec_refused {i : Instr} {s t : State} (hhost : i.isHost = true) (h : exec i s = .next t) :
    t.port.refused = s.port.refused ∨ ∃ why, t = s.refuse why := by
  cases i with
  | init | g | perm | final => cases hhost
  | hash =>
    cases h
    exact .inl (congrArg (fun u => u.port.refused) s.hashCommand_eq :)
  | wrIn data a =>
    rcases lt_or_ge a s.inBytes with hlt | hge
    · cases hb : s.busy with
      | false => cases (exec_wrIn_write data hlt hb).symm.trans h; exact .inl rfl
      | true => cases (exec_wrIn_busy data hlt hb).symm.trans h; exact .inr ⟨_, rfl⟩
    · cases (exec_wrIn_outOfRange data hge).symm.trans h; exact .inr ⟨_, rfl⟩
  | rdIn data a =>
    rcases lt_or_ge a s.inBytes with hlt | hge
    · cases (exec_rdIn_read data hlt).symm.trans h; exact .inl rfl
    · cases (exec_rdIn_outOfRange data hge).symm.trans h; exact .inr ⟨_, rfl⟩
  | rdDout data a =>
    rcases lt_or_ge a 32 with hlt | hge
    · cases (exec_rdDout_read data hlt).symm.trans h; exact .inl rfl
    · cases (exec_rdDout_outOfRange data hge).symm.trans h; exact .inr ⟨_, rfl⟩
  | wrDout data a =>
    rcases lt_or_ge a 32 with hlt | hge
    · cases (exec_wrDout_ignored data hlt).symm.trans h; exact .inl rfl
    · cases (exec_wrDout_outOfRange data hge).symm.trans h; exact .inr ⟨_, rfl⟩
  | _ => cases h; exact .inl rfl

theorem hostStep_refused {r : HostRequest} {s t : State} (h : hostStep r s = .next t) :
    t.port.refused = s.port.refused ∨ ∃ why, t = s.refuse why := by
  rcases hostStep_cases r s with ⟨why, heq⟩ | ⟨_, _, i, hd, heq⟩ <;> rw [heq] at h
  · cases h
    exact .inr ⟨why, rfl⟩
  · exact exec_refused (decodeHost_isHost hd) h

/-- Settles O57: of the three agents only the host adds a reason, by a refusal. -/
theorem refusedMarkIsSticky : Obligations.RefusedMarkIsSticky := by
  intro s t hstep
  have same (h : t.port.refused = s.port.refused) :
      ∃ why, t.port.refused = s.port.refused ++ why ∧ (why ≠ [] → s.sameArch t) :=
    ⟨[], by rw [h, List.append_nil], absurd rfl⟩
  rcases step_agent_cases s with ⟨lane, pick, -, heq⟩ | ⟨r, -, heq⟩ | ⟨-, heq⟩ <;> rw [heq] at hstep
  · exact same (congrArg Port.refused (laneTurn_port hstep) :)
  · rcases hostStep_refused hstep with hrefused | ⟨why, rfl⟩
    · exact same hrefused
    · exact ⟨why, rfl, fun _ => rfl⟩
  · cases hstep
    exact same rfl

end Sys2Proof.Machine
end

section
/-! SUPPORT. The exceptions (60_exceptions.md): the fields of an error report, and that no step faults from a state of the
invariant. -/

namespace Sys2Proof.Machine

/-! ### The error report (R204) -/

theorem statusError_busyBit (code : BitVec 2) : (statusError code).getLsbD 0 = false := by simp [statusError]

theorem statusError_doneBit (code : BitVec 2) : (statusError code).getLsbD 1 = true := by simp [statusError]

/-- The code lies above BUSY and DONE, so the bit that sets DONE leaves both its bits. -/
theorem statusError_errBits (code : BitVec 2) : (statusError code).extractLsb' 2 2 = code := by
  ext i hi
  interval_cases i <;> simp [statusError]

/-- Settles O48: an error report writes STATUS, whose fields are the bits of `statusError`. -/
theorem errorReportIsPrecise : Obligations.ErrorReportIsPrecise := fun _ code =>
  ⟨rfl, statusError_busyBit code, statusError_doneBit code, statusError_errBits code⟩

/-! ### No fault (R207) -/

/-- An idle core waits; a run in progress has the lane's ROM word a uop and its addresses in range. -/
theorem State.Inv.laneTurn_next {s : State} (h : s.Inv) (lane pick : Nat) : ∃ t, laneTurn lane pick s = .next t := by
  by_cases hp : s.drv.phase = .idle
  · exact ⟨s, if_pos hp⟩
  · obtain ⟨hinv, hactive⟩ := State.turnTo_inv h hp lane
    obtain ⟨t, ht, -⟩ := hinv.laneStep_nearer hactive pick
    exact ⟨t, (laneTurn_of_active hp lane pick).trans ht⟩

/-- Settles O52: a turn of a lane finds the invariant; the host is answered in every state, and so is a reset. -/
theorem invStatesNeverFault : Obligations.InvStatesNeverFault := by
  intro s h
  have hinbox : (s.withInbox s.port.inbox.tail).Inv := h.congr rfl rfl rfl rfl rfl rfl rfl rfl rfl
  rcases step_agent_cases s with ⟨lane, pick, -, heq⟩ | ⟨r, -, heq⟩ | ⟨-, heq⟩ <;> rw [heq]
  · exact hinbox.laneTurn_next lane pick
  · obtain ⟨t, ht, -⟩ := hostStep_next r (s.withInbox s.port.inbox.tail)
    exact ⟨t, ht⟩
  · exact ⟨_, rfl⟩

end Sys2Proof.Machine
end

section
/-! SUPPORT. Reset and hazards (70_reset_and_hazards.md): what a reset event leaves on every lane, and the order that makes
a level's pass safe in place. -/

namespace Sys2Proof.Machine

/-! ### In-place scratch (R228) -/

/-- After the first `n` parents the slots below `n` hold parents and those from `n` on still the children; the next parent
reads slots `2n` and `2n + 1`, which are not below `n`. -/
theorem inPlacePass_eq (buf : Nat → CVal) (n k : Nat) :
    inPlacePass buf n k = if k < n then parentCv (buf (2 * k)) (buf (2 * k + 1)) else buf k := by
  induction n generalizing k with
  | zero => rfl
  | succ n ih =>
    have hpass : inPlacePass buf (n + 1) = inPlaceParent (inPlacePass buf n) n := by
      simp [inPlacePass, List.range_succ]
    have hchild (c : Nat) (hc : n ≤ c) : inPlacePass buf n c = buf c := (ih c).trans (if_neg hc.not_gt)
    rw [hpass, inPlaceParent]
    rcases lt_trichotomy k n with hlt | rfl | hgt
    · rw [if_neg hlt.ne, ih, if_pos hlt, if_pos (by omega)]
    · rw [if_pos rfl, hchild _ (by omega), hchild _ (by omega), if_pos k.lt_succ_self]
    · rw [if_neg hgt.ne', hchild k hgt.le, if_neg (by omega)]

/-- Settles O38: a slot below the size of the level holds its parent once the pass is over. -/
theorem inPlaceAscendingIsSafe : Obligations.InPlaceAscendingIsSafe := fun buf size i hi =>
  (inPlacePass_eq buf size i).trans (if_pos hi)

/-! ### The reset event (R220) -/

theorem step_of_reset {s : State} {rest : List Event} (h : s.port.inbox = .reset :: rest) :
    step s = .next (s.withInbox rest).resetEvent := by
  rw [step, nextEvent, h]
  rfl

theorem drawnSeats_mem {reset k : Nat} {seats : List Seat} {p : Seat} (hp : p ∈ drawnSeats reset k seats) :
    p.sub = .load ∧ p.lane.upc = 0 := by
  induction seats generalizing k with
  | nil => cases hp
  | cons q rest ih =>
    rw [drawnSeats, List.mem_cons] at hp
    rcases hp with rfl | hrest
    · exact ⟨rfl, rfl⟩
    · exact ih hrest

/-- No slot of either bank is written after a reset, so each reads as its draw. -/
theorem State.resetEvent_scrRead (s : State) (b k : Nat) :
    s.resetEvent.scrRead b k = drawnSlot (s.resets + 1) (b % 2) k := by
  have hbank : s.resetEvent.bank b = [] := ite_self []
  rw [State.scrRead, hbank]
  rfl

/-- Settles O58: `State.resetEvent` is written out; the parked lanes are drawn anew, as many as before, and the scratch
banks are empty. -/
theorem resetEvent : Obligations.ResetEvent := fun s rest hinbox =>
  ⟨_, step_of_reset hinbox, rfl, rfl, rfl, rfl, rfl, rfl, rfl, rfl, rfl, rfl,
    (s.withInbox rest).resetEvent_lanes, fun _ => drawnSeats_mem, (s.withInbox rest).resetEvent_scrRead,
    rfl, rfl, rfl, rfl, rfl, rfl, rfl⟩

end Sys2Proof.Machine
end
